-- ==== Sys2Proof/Word.lean ====
section
/-! DEFINITION. The words of the block: every bit vector of the spec by its width, and the state identifier. -/

namespace Sys2Proof

/-- A code of the state register S: 4 bits, binary (R7 STATE_W, R21, R60). -/
abbrev StateCode := BitVec 4

/-- A state identifier 0..10 (R6 N_STATES, R60): the row index of the FSM Table. -/
abbrev StateId := Fin 11

/-- The 3-bit sensor word (R6 SENSOR_W, R62). -/
abbrev SensorWord := BitVec 3

/-- The 6-bit traffic-lamp pattern (R6 TRAFFIC_W, R64). -/
abbrev TrafficPattern := BitVec 6

/-- The 2-bit pedestrian-lamp pattern (R6 WALK_W, R65). -/
abbrev WalkPattern := BitVec 2

/-- The 5-bit operation word of one rising clock edge (R67). -/
abbrev Opw := BitVec 5

end Sys2Proof
end

