-- ==== Sys2Proof/Syntax.lean ====
section
/-! DEFINITION. The operations of a clock edge (the rows of spec/opcode_table.json) and the program notation of R73. -/

namespace Sys2Proof

/-- What one rising clock edge does (R68): exactly one of RESET, HOLD and ADVANCE. -/
inductive Instr where
  /-- RESET, `1----` (R82): no operand, `a` and `w` are ignored. -/
  | reset
  /-- HOLD, `00---` (R83): no operand, `w` is ignored. -/
  | hold
  /-- ADV w, `01www` (R84): the sensor word sampled at the edge. -/
  | adv (w : SensorWord)
deriving DecidableEq, Repr

/-- One line of a program in the notation of R73. Operands are the numbers as they are written, so a line may be
ill formed. -/
inductive Line where
  | reset
  | hold
  | adv (w : Nat)
  /-- `WAIT k`: k lines of HOLD. -/
  | wait (k : Nat)
  /-- `CYCLE k, w`: `WAIT k` then `ADV w`. -/
  | cycle (k w : Nat)
deriving DecidableEq, Repr

/-- A program of R73: an optional opening `START s` (the launch premise L-STATE(s), not an edge) and its lines. -/
structure Program where
  start : Option Nat
  lines : List Line
deriving DecidableEq, Repr

end Sys2Proof
end

