-- ==== Sys2Proof/WellFormed.lean ====
section
/-! DEFINITION. Which instructions, lines and programs are well formed. The well-formedness of the FSM Table, WF1 to WF6,
is in Sys2Proof/Machine/TableChecks.lean. -/

namespace Sys2Proof

/-- Every instruction is well formed: RESET and HOLD have no operand, and all eight sensor words are legal and none is
reserved (R63, R69). The 3-bit type of `adv`'s operand admits exactly these eight. -/
def Instr.wellFormed : Instr → Bool
  | .reset => true
  | .hold => true
  | .adv w => decide (w.toNat ≤ 7)

/-- R73: the operand of `ADV w` and `CYCLE k, w` is a sensor word 0..7, and `k ≥ 0` is any number. -/
def Line.wellFormed : Line → Bool
  | .reset => true
  | .hold => true
  | .adv w => decide (w ≤ 7)
  | .wait _ => true
  | .cycle _ w => decide (w ≤ 7)

/-- R73: a program's lines are well formed, and its `START s`, if it has one, names s in 0..10. -/
def Program.wellFormed (p : Program) : Bool :=
  (match p.start with
    | none => true
    | some s => decide (s ≤ 10)) &&
  p.lines.all Line.wellFormed

end Sys2Proof
end

