-- ==== Sys2Proof/Decode.lean ====
section
/-! DEFINITION. The operation word (R67 to R70): its fields, the decoder, the opcode table, the encoder. -/

namespace Sys2Proof

/-- Field `r` of an operation word, bit 4: the `rst` input (R67). -/
def Opw.rst (o : Opw) : Bool := o[4]

/-- Field `a` of an operation word, bit 3: the `adv` input (R67). -/
def Opw.adv (o : Opw) : Bool := o[3]

/-- Field `w` of an operation word, bits 2:0: the `sensor` input (R67, R71). -/
def Opw.sensor (o : Opw) : SensorWord := o.extractLsb' 0 3

/-- Decoding (R68): RESET wins over ADVANCE; all 32 words decode (R69). -/
def decode (o : Opw) : Instr :=
  if Opw.rst o then .reset
  else if Opw.adv o then .adv (Opw.sensor o)
  else .hold

/-- Why a number is no operation word. -/
inductive DecodeReject where
  /-- It has a bit above bit 4, and an operation word has 5 bits (R67, R70). -/
  | notFiveBits (w : Nat)
deriving DecidableEq, Repr

/-- Decoding of a number laid out with bit 0 least significant: a number of 5 bits is an operation word, any other is
rejected by name (log entry 10). -/
def decodeWord (w : Nat) : Except DecodeReject Instr :=
  if w < 32 then .ok (decode (BitVec.ofNat 5 w)) else .error (.notFiveBits w)

/-- The instruction the decoder reads from `nbits` bits numbered as spec/opcode_table.json numbers them. -/
def decodeTableWord (nbits w : Nat) : Option Instr :=
  match decodeWord (w % 2 ^ nbits) with
  | .ok i => some i
  | .error _ => none

/-- A row of the opcode table (R68): a word is the row's when its bits under `mask` are `pattern`. -/
structure OpcodeRow where
  mnemonic : String
  pattern : Opw
  mask : Opw
deriving DecidableEq, Repr

/-- The opcode table of R68, in its order. -/
def opcodeTable : List OpcodeRow :=
  [⟨"RESET", 0b10000, 0b10000⟩, ⟨"HOLD", 0b00000, 0b11000⟩, ⟨"ADV", 0b01000, 0b11000⟩]

/-- The word `o` is of the row `r`. -/
def OpcodeRow.admits (r : OpcodeRow) (o : Opw) : Bool := o &&& r.mask == r.pattern

/-- The table's name of an instruction. -/
def mnemonic : Instr → String
  | .reset => "RESET"
  | .hold => "HOLD"
  | .adv _ => "ADV"

/-- The operation word of an instruction (R67, R68, R73): an ignored field is written as zeros (log entry 10). -/
def encode : Instr → Opw
  | .reset => 0b10000#5
  | .hold => 0b00000#5
  | .adv w => 0b01#2 ++ w

end Sys2Proof
end

