-- ==== Sys2Proof/Config.lean ====
section
/-! DEFINITION. The fixed parameters of R6 and the free values that stand for what the spec leaves open, but the table
(Sys2Proof/Config/OpenTable.lean). -/

namespace Sys2Proof.Config

/-- START_STATE = 0 (R6, R47): the state RESET loads. -/
def startState : StateId := 0

/-- BLINK_DWELL = 5 time units, the dwell of the blink states 5..9 (R6, R27). -/
def blinkDwell : Nat := 5

/-- TIME_UNIT, the physical length of one dwell time unit, OPEN (R8, R132, I6): how many instants of the environment's
clock one unit lasts. Only the environment's duties in Safety.lean read it. A free value (log entry 6). -/
opaque timeUnit : Nat

/-- What the environment drives on `rst`, `adv` and `sensor` at the n-th edge for which nothing was put into
`State.inputs` (R48, I8, I12). A free value (log entry 7). -/
opaque envInput : Nat → Opw

/-- The register S before the first RESET edge: any code 0..15 (R33, R141). A free value (log entry 8). -/
opaque powerUpCode : StateCode

end Sys2Proof.Config
end

