-- ==== Sys2Proof/Machine/Lamps.lean ====
section
/-! DEFINITION. The lamp layouts and the named lamps (R64, R65, R66, R103). -/

namespace Sys2Proof.Machine

/-- TRAFFIC_LAYOUT (R64): the bit of each traffic lamp; the defaults are R64's. Two lamps never share a bit
(log entry 4). -/
structure TrafficLayout where
  nsRed : Fin 6 := 0
  nsYellow : Fin 6 := 1
  nsGreen : Fin 6 := 2
  ewRed : Fin 6 := 3
  ewYellow : Fin 6 := 4
  ewGreen : Fin 6 := 5
  distinct : [nsRed, nsYellow, nsGreen, ewRed, ewYellow, ewGreen].Nodup := by decide
deriving DecidableEq, Repr

/-- WALK_LAYOUT (R65): the bit of each pedestrian lamp; the defaults are R65's. -/
structure WalkLayout where
  walk : Fin 2 := 0
  dontWalk : Fin 2 := 1
  distinct : [walk, dontWalk].Nodup := by decide
deriving DecidableEq, Repr

/-- The two layouts in force, by default those of R64 and R65 (R7). -/
structure Layouts where
  traffic : TrafficLayout := {}
  walk : WalkLayout := {}
deriving DecidableEq, Repr

/-- The traffic lamps by name (R103): true is lit (R66). -/
structure TrafficLamps where
  nsRed : Bool
  nsYellow : Bool
  nsGreen : Bool
  ewRed : Bool
  ewYellow : Bool
  ewGreen : Bool
deriving DecidableEq, Repr

/-- The pedestrian lamps by name (R103): true is lit (R66). -/
structure WalkLamps where
  walk : Bool
  dontWalk : Bool
deriving DecidableEq, Repr

/-- LAMPS, the traffic half (R103): each lamp is the bit its layout names, lit when that bit is 1. -/
def trafficLamps (l : TrafficLayout) (p : TrafficPattern) : TrafficLamps where
  nsRed := p[l.nsRed]
  nsYellow := p[l.nsYellow]
  nsGreen := p[l.nsGreen]
  ewRed := p[l.ewRed]
  ewYellow := p[l.ewYellow]
  ewGreen := p[l.ewGreen]

/-- LAMPS, the pedestrian half (R103). -/
def walkLamps (l : WalkLayout) (p : WalkPattern) : WalkLamps where
  walk := p[l.walk]
  dontWalk := p[l.dontWalk]

/-- How many north-south lamps are lit. -/
def nsLit (t : TrafficLamps) : Nat := [t.nsRed, t.nsYellow, t.nsGreen].count true

/-- How many east-west lamps are lit. -/
def ewLit (t : TrafficLamps) : Nat := [t.ewRed, t.ewYellow, t.ewGreen].count true

/-- How many pedestrian lamps are lit. -/
def walkLit (t : WalkLamps) : Nat := [t.walk, t.dontWalk].count true

/-- Both directions show green: what the mutual-exclusion invariant forbids (R104, R124 WF2). -/
def bothGreen (t : TrafficLamps) : Bool := t.nsGreen && t.ewGreen

/-- `popcount(v)`, the number of 1 bits of v (R10). -/
def popcount {n : Nat} (v : BitVec n) : Nat := (List.finRange n).countP fun i => v[i]

end Sys2Proof.Machine
end

