-- ==== Sys2Proof/Machine/Table.lean ====
section
/-! DEFINITION. The FSM Table: the block's read-only ROMs (R24 to R27, R40) and the entries the source fixes. -/

namespace Sys2Proof.Machine

/-- An FSM Table instance: 11 state records (R25, R26, R27, R40). A ROM is held whole, entry by entry, at its own
width; the block has no bytes (R43, log entry 9). -/
structure Table where
  /-- DWELL_W, the width of the dwell port (R8). -/
  dwellW : Nat
  /-- TT: `tt[s][w]`, 11 x 8 entries of 4 bits (R25). -/
  tt : Vector (Vector StateCode 8) 11
  /-- TRAFFIC_ROM, 6 bits an entry (R26). -/
  trafficRom : Vector TrafficPattern 11
  /-- WALK_ROM, 2 bits an entry (R26). -/
  walkRom : Vector WalkPattern 11
  /-- DWELL_ROM, DWELL_W bits an entry, in time units (R27, R72). -/
  dwellRom : Vector (BitVec dwellW) 11
deriving DecidableEq, Repr

/-- `TT[s][w]` (R10, R25): the row is the state's, the column the sensor word unchanged (R63). -/
def Table.entry (t : Table) (s : StateId) (w : SensorWord) : StateCode := t.tt[s][w.toNat]

/-- `TRAFFIC_ROM[s]`. -/
def Table.traffic (t : Table) (s : StateId) : TrafficPattern := t.trafficRom[s]

/-- `WALK_ROM[s]`. -/
def Table.walk (t : Table) (s : StateId) : WalkPattern := t.walkRom[s]

/-- `DWELL_ROM[s]`. -/
def Table.dwell (t : Table) (s : StateId) : BitVec t.dwellW := t.dwellRom[s]

/-- The state identifiers, rising. -/
def allStates : List StateId := [0, 1, 2, 3, 4, 5, 6, 7, 8, 9, 10]

/-- The sensor words, rising. -/
def allWords : List SensorWord := [0, 1, 2, 3, 4, 5, 6, 7]

/-- Row 0 of TT as the source gives it (R24). -/
def fixedRow0 : Vector StateCode 8 := #v[0, 0, 1, 1, 1, 1, 1, 1]

/-- Row 9 of TT as the source gives it (R24). -/
def fixedRow9 : Vector StateCode 8 := #v[4, 10, 10, 10, 4, 10, 10, 10]

/-- The TT entries the source fixes (R24): rows 0 and 9 and TT[4][1] = 5 (90_conflicts.md C1). -/
def fixedEntry (s : StateId) (w : SensorWord) : Option StateCode :=
  if s = 0 then some fixedRow0[w.toNat]
  else if s = 9 then some fixedRow9[w.toNat]
  else if s = 4 ∧ w = 1 then some 5
  else none

/-- The dwell times the source fixes (R27): 5 units in the blink states 5..9. -/
def fixedDwell (s : StateId) : Option Nat :=
  if 5 ≤ s ∧ s ≤ 9 then some Config.blinkDwell else none

/-- The synthetic table Z of 95_test_vectors.md section 2.5, for tests and to show that a well-formed table exists.
It is not the hardware's table. -/
def tableZ : Table where
  dwellW := 3
  tt := #v[fixedRow0, .replicate 8 0, .replicate 8 0, .replicate 8 0, #v[0, 5, 0, 0, 0, 0, 0, 0],
    .replicate 8 0, .replicate 8 0, .replicate 8 0, .replicate 8 0, fixedRow9, .replicate 8 0]
  trafficRom := .replicate 11 0x09
  walkRom := .replicate 11 0b10
  dwellRom := #v[1, 1, 1, 1, 1, 5, 5, 5, 5, 5, 1]

end Sys2Proof.Machine
end

