-- ==== Sys2Proof/Machine/TableChecks.lean ====
section
/-! DEFINITION. The well-formedness checks WF1 to WF6 of R124, and the verdict of R121 and R125 on a table. -/

namespace Sys2Proof.Machine

/-- WF1 (range): every transition names a state 0..10. -/
abbrev WF1 (t : Table) : Prop := ∀ (s : StateId) (w : SensorWord), t.entry s w ≤ 10

/-- WF2 (exclusion): no state lights both greens, under the layout in force. -/
abbrev WF2 (l : Layouts) (t : Table) : Prop :=
  ∀ s : StateId, bothGreen (trafficLamps l.traffic (t.traffic s)) = false

/-- WF3 (per road): exactly one lamp per direction is lit, under the layout in force. -/
abbrev WF3 (l : Layouts) (t : Table) : Prop :=
  ∀ s : StateId, nsLit (trafficLamps l.traffic (t.traffic s)) = 1 ∧ ewLit (trafficLamps l.traffic (t.traffic s)) = 1

/-- WF4 (walk): exactly one pedestrian lamp is lit. -/
abbrev WF4 (l : Layouts) (t : Table) : Prop := ∀ s : StateId, walkLit (walkLamps l.walk (t.walk s)) = 1

/-- WF5 (dwell): every dwell time is positive. -/
abbrev WF5 (t : Table) : Prop := ∀ s : StateId, 1 ≤ (t.dwell s).toNat

/-- WF6 (literals): the entries the source fixes stand (R24, R27). -/
abbrev WF6 (t : Table) : Prop :=
  (∀ (s : StateId) (w : SensorWord), ∀ v ∈ fixedEntry s w, t.entry s w = v) ∧
  (∀ s : StateId, ∀ d ∈ fixedDwell s, (t.dwell s).toNat = d)

/-- The refusal verdicts of R121, each with the info it records. -/
inductive Verdict where
  | wf1 (s : StateId) (w : SensorWord) (entry : StateCode)
  | wf2 (s : StateId) (pattern : TrafficPattern)
  | wf3 (s : StateId) (pattern : TrafficPattern)
  | wf4 (s : StateId) (pattern : WalkPattern)
  | wf5 (s : StateId) (dwell : Nat)
  /-- WF6 with field TT, index (s, w). -/
  | wf6Tt (s : StateId) (w : SensorWord) (entry : StateCode)
  /-- WF6 with field DWELL_ROM, index s. -/
  | wf6Dwell (s : StateId) (dwell : Nat)
deriving DecidableEq, Repr

/-- No verdict where the check holds, else the given one. -/
def failUnless (ok : Bool) (v : Verdict) : Option Verdict := if ok then none else some v

/-- The first failure of WF1: the lowest state, then the lowest sensor word (R125). -/
def failure1 (t : Table) : Option Verdict :=
  allStates.findSome? fun s => allWords.findSome? fun w =>
    failUnless (t.entry s w ≤ 10) (.wf1 s w (t.entry s w))

/-- The first failure of WF2. -/
def failure2 (l : Layouts) (t : Table) : Option Verdict :=
  allStates.findSome? fun s =>
    failUnless (!bothGreen (trafficLamps l.traffic (t.traffic s))) (.wf2 s (t.traffic s))

/-- The first failure of WF3. -/
def failure3 (l : Layouts) (t : Table) : Option Verdict :=
  allStates.findSome? fun s =>
    failUnless (nsLit (trafficLamps l.traffic (t.traffic s)) = 1 ∧ ewLit (trafficLamps l.traffic (t.traffic s)) = 1)
      (.wf3 s (t.traffic s))

/-- The first failure of WF4. -/
def failure4 (l : Layouts) (t : Table) : Option Verdict :=
  allStates.findSome? fun s => failUnless (walkLit (walkLamps l.walk (t.walk s)) = 1) (.wf4 s (t.walk s))

/-- The first failure of WF5. -/
def failure5 (t : Table) : Option Verdict :=
  allStates.findSome? fun s => failUnless (1 ≤ (t.dwell s).toNat) (.wf5 s (t.dwell s).toNat)

/-- Whether `x` is what the source fixes, where it fixes anything. -/
def meetsFixed {α : Type} [DecidableEq α] (fixed : Option α) (x : α) : Bool :=
  match fixed with
  | none => true
  | some v => decide (x = v)

/-- The first failure of WF6: the lowest state, within it TT's entries by sensor word and then the dwell
(R125, log entry 11). -/
def failure6 (t : Table) : Option Verdict :=
  allStates.findSome? fun s =>
    (allWords.findSome? fun w =>
      failUnless (meetsFixed (fixedEntry s w) (t.entry s w)) (.wf6Tt s w (t.entry s w))).or
    (failUnless (meetsFixed (fixedDwell s) (t.dwell s).toNat) (.wf6Dwell s (t.dwell s).toNat))

/-- The verdict on a table under the layouts in force: `none` when all six checks hold, else the lowest-numbered
failing check (R124, R125). -/
def verdict (l : Layouts) (t : Table) : Option Verdict :=
  (failure1 t).or ((failure2 l t).or ((failure3 l t).or ((failure4 l t).or ((failure5 t).or (failure6 t)))))

/-- A table that has no verdict passes WF1: its transitions name legal codes (R86 Total). -/
theorem entry_le_of_verdict {l : Layouts} {t : Table} (h : verdict l t = none) (s : StateId) (w : SensorWord) :
    t.entry s w ≤ 10 := by
  have hs : ∀ s, s ∈ allStates := by decide
  have hw : ∀ w, w ∈ allWords := by decide
  have h1 : failure1 t = none := (Option.or_eq_none_iff.mp h).1
  have h2 := List.findSome?_eq_none_iff.mp (List.findSome?_eq_none_iff.mp h1 s (hs s)) w (hw w)
  by_contra hn
  rw [decide_eq_false hn] at h2
  cases h2

end Sys2Proof.Machine
end

