-- ==== Sys2Proof/Config/OpenTable.lean ====
section
/-! DEFINITION. The table of the hardware, OPEN but for the source's literals (R8, R25 to R27): a free value. -/

namespace Sys2Proof.Config

/-- A table that passes WF1 to WF6 under the default layouts (R143.1). The default value only shows that there is
one; nothing can learn from it what `openTable` is. -/
structure DefaultLayoutTable where
  table : Machine.Table := Machine.tableZ
  wf : Machine.verdict {} table = none := by decide
deriving Inhabited

/-- The hardware's FSM Table: TT_OPEN, TRAFFIC_ROM, WALK_ROM, DWELL_OPEN and DWELL_W of R8. A free value
(log entry 3): any well-formed table may be the one. -/
opaque openTable : DefaultLayoutTable

end Sys2Proof.Config
end

