-- ==== Sys2Proof/Machine/State.lean ====
section
/-! DEFINITION. The state of the block, the reasons to stop, and the state after reset. -/

namespace Sys2Proof.Machine

/-- The block as built: its constant table, the layouts in force, and that the table passed WF1 to WF6 under them.
No block exists for a table that fails (R122, R124). -/
structure Block where
  table : Table
  layouts : Layouts
  wf : verdict layouts table = none
deriving DecidableEq, Repr

/-- The machine's state (R20): the register S and the constant block; then the model's own two fields. -/
structure State where
  /-- The state in the state register S: one of the 11 identifiers, so no illegal code can stand here (R61, R126, D3).
  The register's 4 bits are its code (`State.code`, R21, R60). -/
  S : StateId
  /-- The constant contents: the FSM Table and the layouts (R24 to R27, R30). -/
  block : Block
  /-- The model's own field: what the environment drives at the coming edges, one operation word an edge
  (R67, R73, log entry 7). -/
  inputs : List Opw
  /-- The model's own field: how many free environment words have been drawn (log entry 7). -/
  drawn : Nat
deriving DecidableEq, Repr

/-- No fault exists: the block raises no exception, trap or error at run time (R120, R129). Safe: there is none to
raise. -/
inductive Fault : Type
deriving DecidableEq, Repr

/-- Why the model gives something no meaning. -/
inductive Refusal where
  /-- Raised by `exec` for an instruction that has no meaning yet; no arm does so now. Safe. -/
  | notModelled (mnemonic : String)
  /-- Raised by NEXT, the decoders and the register operations HOLD and ADVANCE for a code 11..15 (R61, R126, I10;
  HOLD: log entry 2). No state holds such a code, so no instruction of a run is refused. Safe: the hardware's behaviour
  there is implementation-defined. -/
  | illegalStateCode (code : StateCode)
  /-- Raised by `buildBlock` for a table that fails a check (R121, R122). Safe: no block exists for it. -/
  | tableRefused (verdict : Verdict)
deriving DecidableEq, Repr

/-- S <- v at a rising edge: S takes the value whole, and nothing else changes (R45, R80). -/
def State.setS (s : State) (v : StateId) : State := { s with S := v }

/-- The hardware's block: the open table under the default layouts (R7, R8). -/
def hardwareBlock : Block where
  table := Config.openTable.table
  layouts := {}
  wf := Config.openTable.wf

/-- The machine right after a RESET edge (R32, R140): S = 0, the table as it was built, nothing driven yet. -/
def State.reset : State where
  S := Config.startState
  block := hardwareBlock
  inputs := []
  drawn := 0

end Sys2Proof.Machine
end

