-- ==== Sys2Proof/Machine/Operands.lean ====
section
/-! DEFINITION. The operands: the state operand (the code in S), the sensor word and its bits, the TT index
(R60 to R63, R71). -/

namespace Sys2Proof.Machine

/-- `zext_4(s)`: the code of a state identifier (R60). -/
def codeOf (s : StateId) : StateCode := BitVec.ofNat 4 s

/-- The state a code names; the codes 11..15 name none and are refused (R61, R126). -/
def stateOf (code : StateCode) : Except Refusal StateId :=
  if h : code.toNat < 11 then .ok ⟨code.toNat, h⟩ else .error (.illegalStateCode code)

theorem codeOf_toNat_lt (s : StateId) : (codeOf s).toNat < 11 := by revert s; decide

@[simp] theorem stateOf_codeOf (s : StateId) : stateOf (codeOf s) = .ok s := by revert s; decide

/-- The legal codes are the codes of the states (R60, R61). -/
theorem legal_iff_codeOf {c : StateCode} : c ≤ 10 ↔ ∃ s, c = codeOf s := by revert c; decide

/-- The contents of the register S, 4 bits: the state operand of every operation (R21, R60, R71). -/
def State.code (s : State) : StateCode := codeOf s.S

/-- Sensor bit 0: an east-west car is present (R62). -/
def eastWestCar (w : SensorWord) : Bool := w[0]

/-- Sensor bit 1: a north-south car is present (R62). -/
def northSouthCar (w : SensorWord) : Bool := w[1]

/-- Sensor bit 2: a pedestrian request is present (R62). -/
def pedestrianRequest (w : SensorWord) : Bool := w[2]

/-- The TT index `{S[3:0], w[2:0]}`, S in the high bits (R40, R71). -/
def ttIndex (code : StateCode) (w : SensorWord) : BitVec 7 := code ++ w

/-- The row part of a TT index is the code, the column part the sensor word. -/
theorem ttIndex_parts (c : StateCode) (w : SensorWord) :
    (ttIndex c w).extractLsb' 3 4 = c ∧ (ttIndex c w).extractLsb' 0 3 = w := by revert c w; decide

end Sys2Proof.Machine
end

