-- ==== Sys2Proof/Machine/Ops.lean ====
section
/-! DEFINITION. The shared operations: building the block, MemRead of each ROM, NEXT, and taking the inputs of an edge.
The block takes no exception and has no trap entry or return (R120, R129), so there is no operation for one. -/

namespace Sys2Proof.Machine

/-- Building the block from a table (R122, R123, R143.1): a table that fails a check gives no block, and the refusal
carries the verdict. -/
def buildBlock (l : Layouts) (t : Table) : Except Refusal Block :=
  match h : verdict l t with
  | none => .ok ⟨t, l, h⟩
  | some v => .error (.tableRefused v)

/-- `MemRead(TT, {s, w})` (R41): the row is in bits 6:3 of the index, the column in bits 2:0. -/
def memReadTT (b : Block) (index : BitVec 7) : Except Refusal StateCode :=
  (stateOf (index.extractLsb' 3 4)).map fun s => b.table.entry s (index.extractLsb' 0 3)

/-- `MemRead(TRAFFIC_ROM, s)` (R41). -/
def memReadTraffic (b : Block) (index : StateCode) : Except Refusal TrafficPattern :=
  (stateOf index).map b.table.traffic

/-- `MemRead(WALK_ROM, s)` (R41). -/
def memReadWalk (b : Block) (index : StateCode) : Except Refusal WalkPattern :=
  (stateOf index).map b.table.walk

/-- `MemRead(DWELL_ROM, s)` (R41). -/
def memReadDwell (b : Block) (index : StateCode) : Except Refusal (BitVec b.table.dwellW) :=
  (stateOf index).map b.table.dwell

/-- NEXT(s, w), the transition multiplexer (R85). -/
def next (b : Block) (code : StateCode) (w : SensorWord) : Except Refusal StateCode :=
  memReadTT b (ttIndex code w)

/-- NEXT reads the entry of the row S and the column w. -/
theorem next_eq (b : Block) (c : StateCode) (w : SensorWord) :
    next b c w = (stateOf c).map fun s => b.table.entry s w := by
  simp [next, memReadTT, ttIndex_parts]

@[simp] theorem next_codeOf (b : Block) (s : StateId) (w : SensorWord) :
    next b (codeOf s) w = .ok (b.table.entry s w) := by simp [next_eq, Except.map]

/-- The inputs sampled at the coming edge, and the state with them taken: the next word the environment was given to
drive, or else a free one (R48, R67, I8, I12, log entry 7). -/
def takeInputs (s : State) : Opw × State :=
  match s.inputs with
  | o :: rest => (o, { s with inputs := rest })
  | [] => (Config.envInput s.drawn, { s with drawn := s.drawn + 1 })

end Sys2Proof.Machine
end

