-- ==== Sys2Proof/Machine/StateRegister.lean ====
section
/-! DEFINITION. The clock-edge operations RESET, HOLD and ADVANCE (R80 to R84): first on the 4-bit register, whatever code
it holds, then on the machine's state, whose register holds one of the 11 legal codes (log entry 1). -/

namespace Sys2Proof.Machine

/-- RESET on the register: `S <- 0`, from any code, an illegal one too (R82). -/
def resetCode (_ : StateCode) : Except Refusal StateCode := .ok (codeOf Config.startState)

/-- HOLD on the register: `S <- S` (R83). On an illegal code only RESET is defined (R82, log entry 2). -/
def holdCode (code : StateCode) : Except Refusal StateCode := (stateOf code).map fun _ => code

/-- ADVANCE on the register: `S <- NEXT(S, w)`, with the S of before the edge (R80, R84). -/
def advanceCode (b : Block) (w : SensorWord) (code : StateCode) : Except Refusal StateCode := next b code w

/-- What one edge does to the register of a block, by its operation (R68, R80). -/
def registerEdge (b : Block) (i : Instr) (code : StateCode) : Except Refusal StateCode :=
  match i with
  | .reset => resetCode code
  | .hold => holdCode code
  | .adv w => advanceCode b w code

/-- From the code of a state every operation answers the code of a state: no operation produces an illegal code
(R61, R86, R89). -/
theorem registerEdge_codeOf (b : Block) (i : Instr) (s : StateId) :
    ∃ j, registerEdge b i (codeOf s) = .ok (codeOf j) := by
  cases i with
  | reset => exact ⟨_, rfl⟩
  | hold => exact ⟨s, by simp [registerEdge, holdCode, Except.map]⟩
  | adv w =>
    obtain ⟨j, hj⟩ := legal_iff_codeOf.mp (entry_le_of_verdict b.wf s w)
    exact ⟨j, by simp [registerEdge, advanceCode, hj]⟩

/-- Every operation answers the code of a state from the register of a state of the machine. -/
theorem registerEdge_answers (i : Instr) (s : State) : ∃ j, registerEdge s.block i s.code = .ok (codeOf j) :=
  registerEdge_codeOf s.block i s.S

/-- The state whose code an operation answers. -/
def stateStored (answer : Except Refusal StateCode) (h : ∃ j, answer = .ok (codeOf j)) : StateId :=
  match answer, h with
  | .ok c, h => ⟨c.toNat, by obtain ⟨j, hj⟩ := h; cases hj; exact codeOf_toNat_lt j⟩
  | .error _, h => absurd h (by rintro ⟨_, hj⟩; cases hj)

/-- One operation on the machine: the register takes the code that the operation answers, and nothing else changes. -/
def loadRegister (i : Instr) (s : State) : State :=
  s.setS (stateStored (registerEdge s.block i s.code) (registerEdge_answers i s))

/-- RESET (R82). -/
def execReset (s : State) : Host.Outcome State Fault Refusal := .next (loadRegister .reset s)

/-- HOLD (R83). -/
def execHold (s : State) : Host.Outcome State Fault Refusal := .next (loadRegister .hold s)

/-- ADVANCE (R84). -/
def execAdv (w : SensorWord) (s : State) : Host.Outcome State Fault Refusal := .next (loadRegister (.adv w) s)

end Sys2Proof.Machine
end

