-- ==== Sys2Proof/Machine/Step.lean ====
section
/-! DEFINITION. One step is one rising clock edge (R11 edge view, R80): the inputs are sampled, decoded and carried out. -/

namespace Sys2Proof.Machine

/-- One rising clock edge (R80, R81). -/
def step (s : State) : Host.Outcome State Fault Refusal :=
  exec (decode (takeInputs s).1) (takeInputs s).2

/-- `s` with the operation word `w` driven at the very next edge, before anything already in `inputs`. -/
def State.withFetchWord (s : State) (nbits w : Nat) : State :=
  { s with inputs := BitVec.ofNat 5 (w % 2 ^ nbits) :: s.inputs }

end Sys2Proof.Machine
end

