-- ==== Sys2Proof/Machine/Assembler.lean ====
section
/-! DEFINITION. The program notation of R73: its text, its expansion into operation words, and the launch premises of
R141. -/

namespace Sys2Proof.Machine

/-- The edges of one line (R73): `WAIT k` is k lines of HOLD, `CYCLE k, w` is `WAIT k` then `ADV w`. -/
def lineEdges : Line → List Opw
  | .reset => [encode .reset]
  | .hold => [encode .hold]
  | .adv w => [encode (.adv (BitVec.ofNat 3 w))]
  | .wait k => List.replicate k (encode .hold)
  | .cycle k w => List.replicate k (encode .hold) ++ [encode (.adv (BitVec.ofNat 3 w))]

/-- The edges of a program, in order (R73). -/
def programEdges (p : Program) : List Opw := p.lines.flatMap lineEdges

/-- A built block in the state `i` with the edges `os` to come. -/
def launchState (b : Block) (i : StateId) (os : List Opw) : State where
  S := i
  block := b
  inputs := os
  drawn := 0

/-- L-RESET (R141): the first edge `o` is a RESET; the machine's run starts with the state that this edge leaves in the
register, from whatever code it powered up with (R33). -/
def launchAtReset (b : Block) (powerUp : StateCode) (o : Opw) (os : List Opw) : Option State :=
  if decode o = .reset then
    match (registerEdge b (decode o) powerUp).bind stateOf with
    | .ok i => some (launchState b i os)
    | .error _ => none
  else none

/-- The start of a program's run on a built block (R73, R141): `START s` is L-STATE(s); without it the first edge
must be a RESET (L-RESET), and S before it is the free power-up code (R33, log entry 8). -/
def launch (p : Program) (b : Block) : Option State :=
  if p.wellFormed then
    match p.start, programEdges p with
    | some s, os =>
      match stateOf (BitVec.ofNat 4 s) with
      | .ok i => some (launchState b i os)
      | .error _ => none
    | none, o :: os => launchAtReset b Config.powerUpCode o os
    | none, [] => none
  else none

/-- What one line of text holds. -/
inductive AsmItem where
  | blank
  | start (s : Nat)
  | line (l : Line)
deriving DecidableEq, Repr

/-- A finished token, if any character was read for it. -/
def flushToken (acc : List Char) : List (List Char) :=
  if acc.isEmpty then [] else [acc.reverse]

/-- The tokens of a line: blanks part them, a comma is one, `;` starts a comment (R73, log entry 13). -/
def lexLine : List Char → List Char → List (List Char)
  | acc, [] => flushToken acc
  | acc, c :: cs =>
    if c = ';' then flushToken acc
    else if c = ' ' ∨ c = '\t' then flushToken acc ++ lexLine [] cs
    else if c = ',' then flushToken acc ++ [','] :: lexLine [] cs
    else lexLine (c :: acc) cs

/-- A decimal number, read after `acc`. -/
def decimalFrom : Nat → List Char → Option Nat
  | acc, [] => some acc
  | acc, c :: cs =>
    if '0' ≤ c ∧ c ≤ '9' then decimalFrom (10 * acc + (c.toNat - '0'.toNat)) cs else none

/-- A decimal number of at least one digit. -/
def decimal (cs : List Char) : Option Nat := if cs.isEmpty then none else decimalFrom 0 cs

/-- One binary digit. -/
def binaryDigit (c : Char) : Option Nat := if c = '0' then some 0 else if c = '1' then some 1 else none

/-- Three binary digits, most significant first (R9). -/
def threeBits : List Char → Option Nat
  | [x, y, z] =>
    match binaryDigit x, binaryDigit y, binaryDigit z with
    | some a, some b, some c => some (4 * a + 2 * b + c)
    | _, _, _ => none
  | _ => none

/-- A sensor word as it is written: `0bxyz` or decimal (R73). -/
def sensorLiteral : List Char → Option Nat
  | '0' :: 'b' :: ds => threeBits ds
  | ds => decimal ds

/-- One line of text (R73). -/
def parseLine (cs : List Char) : Option AsmItem :=
  match lexLine [] cs with
  | [] => some .blank
  | [op] =>
    if op = ['R', 'E', 'S', 'E', 'T'] then some (.line .reset)
    else if op = ['H', 'O', 'L', 'D'] then some (.line .hold)
    else none
  | [op, x] =>
    if op = ['A', 'D', 'V'] then (sensorLiteral x).map fun w => .line (.adv w)
    else if op = ['W', 'A', 'I', 'T'] then (decimal x).map fun k => .line (.wait k)
    else if op = ['S', 'T', 'A', 'R', 'T'] then (decimal x).map .start
    else none
  | [op, x, c, y] =>
    if op = ['C', 'Y', 'C', 'L', 'E'] ∧ c = [','] then
      match decimal x, sensorLiteral y with
      | some k, some w => some (.line (.cycle k w))
      | _, _ => none
    else none
  | _ => none

/-- The lines of a program after its opening: no further `START` (R73). -/
def programLines : List AsmItem → Option (List Line)
  | [] => some []
  | .blank :: is => programLines is
  | .start _ :: _ => none
  | .line l :: is => (programLines is).map (l :: ·)

/-- A program: it may open with `START s` (R73). -/
def programOf : List AsmItem → Option Program
  | .blank :: is => programOf is
  | .start s :: is => (programLines is).map fun ls => ⟨some s, ls⟩
  | is => (programLines is).map fun ls => ⟨none, ls⟩

/-- The program of a text, line by line; none when a line is not in the notation. -/
def parseProgram (text : List (List Char)) : Option Program :=
  match text.mapM parseLine with
  | none => none
  | some is => programOf is

end Sys2Proof.Machine
end

