-- ==== Sys2Proof/Machine/Outputs.lean ====
section
/-! DEFINITION. The output ports, combinational functions of S (R28, R100 to R103, R107, R108). -/

namespace Sys2Proof.Machine

/-- TRAFFIC_OUT: `traffic <- TRAFFIC_ROM[S]` (R101). -/
def trafficOut (s : State) : Except Refusal TrafficPattern := memReadTraffic s.block s.code

/-- WALK_OUT: `walk <- WALK_ROM[S]` (R102). -/
def walkOut (s : State) : Except Refusal WalkPattern := memReadWalk s.block s.code

/-- DWELL_OUT: `dwell <- DWELL_ROM[S]` (R107). -/
def dwellOut (s : State) : Except Refusal (BitVec s.block.table.dwellW) := memReadDwell s.block s.code

/-- STATE_OUT: `state <- S`, whole (R108). -/
def stateOut (s : State) : StateCode := s.code

/-- LAMPS: the traffic lamps of the current state by name, under the layout in force (R103). -/
def trafficLampsOut (s : State) : Except Refusal TrafficLamps :=
  (trafficOut s).map (trafficLamps s.block.layouts.traffic)

/-- LAMPS: the pedestrian lamps of the current state by name, under the layout in force (R103). -/
def walkLampsOut (s : State) : Except Refusal WalkLamps :=
  (walkOut s).map (walkLamps s.block.layouts.walk)

end Sys2Proof.Machine
end

