-- ==== Sys2Proof/Machine/Views.lean ====
section
/-! DEFINITION. The two views of R11 written as the spec writes them, beside the machine: the edge function (R81) and the
cycle view (R87). The machine does not use them; claims compare it with them. -/

namespace Sys2Proof.Machine

/-- The edge function, clause by clause (R81). The rule claims it for S in 0..10 only; that HOLD keeps a code 11..15 here,
where `holdCode` refuses it, is the model's choice (DESIGN CHOICE, log entry 2). The machine does not use this function. -/
def edge (b : Block) (rst adv : Bool) (w : SensorWord) (code : StateCode) : Except Refusal StateCode :=
  if rst then .ok 0
  else if adv then next b code w
  else .ok code

/-- S after a sequence of edges, by the edge function. -/
def edgeRun (b : Block) (code : StateCode) (os : List Opw) : Except Refusal StateCode :=
  os.foldlM (fun c o => edge b (Opw.rst o) (Opw.adv o) (Opw.sensor o) c) code

/-- One FSM cycle, which is one ADVANCE (R87). -/
def cycle (b : Block) (code : StateCode) (w : SensorWord) : Except Refusal StateCode := next b code w

/-- S after a sequence of cycles (R87). -/
def cycleRun (b : Block) (code : StateCode) (ws : List SensorWord) : Except Refusal StateCode :=
  ws.foldlM (cycle b) code

/-- The sensor word that an edge samples: only an ADVANCE samples one (R29, R48). -/
def sampledWord (o : Opw) : Option SensorWord :=
  match decode o with
  | .reset => none
  | .hold => none
  | .adv w => some w

/-- The edge is a RESET edge. -/
def isReset (o : Opw) : Bool := decode o == .reset

/-- The edge loads S: it is a RESET or an ADVANCE edge, self-transitions included (R131.1). -/
def loadsS (o : Opw) : Bool := isReset o || (sampledWord o).isSome

/-- A (state, output) pair of the determinism property (R87), read at the ports (R108). -/
structure Observation where
  code : StateCode
  traffic : TrafficPattern
  walk : WalkPattern
deriving DecidableEq, Repr

/-- What the ports show in a state (R28). -/
def observe (s : State) : Except Refusal Observation :=
  match trafficOut s, walkOut s with
  | .ok t, .ok w => .ok ⟨stateOut s, t, w⟩
  | .error r, _ => .error r
  | _, .error r => .error r

/-- What R87 gives for a code: (s, TRAFFIC_ROM[s], WALK_ROM[s]). -/
def cycleOutput (b : Block) (code : StateCode) : Except Refusal Observation :=
  (stateOf code).map fun s => ⟨code, b.table.traffic s, b.table.walk s⟩

/-- The state and output sequences of the cycle view, one entry for each cycle (R87). -/
def cycleTrace (b : Block) : StateCode → List SensorWord → List (Except Refusal Observation)
  | _, [] => []
  | code, w :: ws =>
    match cycle b code w with
    | .ok v => cycleOutput b v :: cycleTrace b v ws
    | .error r => [.error r]

end Sys2Proof.Machine
end

