-- ==== Sys2Proof/Safety.lean ====
section
/-! DEFINITION. The terms of the claims: legal and reachable states, runs and what is seen along them, and the duties of
the Timing Service (R131). -/

namespace Sys2Proof.Machine

/-- `n` edges of the machine, one after another. -/
def run (n : Nat) (s : State) : Host.Outcome State Fault Refusal := Host.Core.run Sys2Proof.core n s

/-- S holds a legal code 0..10 (R21). -/
abbrev State.Legal (s : State) : Prop := s.code.toNat ≤ 10

/-- The reachable states: those of a run that starts from one of the two launch premises of R141. -/
inductive Reachable : State → Prop where
  /-- L-STATE(s): S = s for a named s in 0..10. -/
  | launched (b : Block) (s : StateId) (os : List Opw) : Reachable (launchState b s os)
  /-- L-RESET: the state after a first edge that is a RESET, whatever code the register held before it. -/
  | afterFirstReset (b : Block) (powerUp : StateCode) (o : Opw) (os : List Opw) (t : State) :
    launchAtReset b powerUp o os = some t → Reachable t
  /-- Any later edge. -/
  | stepped (s t : State) : Reachable s → step s = .next t → Reachable t

/-- What the ports show after each ADVANCE edge among the next `n` edges of the machine (R87). -/
def advanceTrace : Nat → State → List (Except Refusal Observation)
  | 0, _ => []
  | n + 1, s =>
    match step s with
    | .next t =>
      if (sampledWord (takeInputs s).1).isSome then observe t :: advanceTrace n t else advanceTrace n t
    | .refused r => [.error r]

/-- An edge and the instant it comes at, counted by a clock of the environment (R131, log entry 6). The block sees no
instants. -/
structure TimedEdge where
  time : Nat
  opw : Opw
deriving DecidableEq, Repr

/-- The instants of the edges rise (each edge is after the one before it), from `now` on. -/
def timesRise : Nat → List TimedEdge → Prop
  | _, [] => True
  | now, e :: es => now < e.time ∧ timesRise e.time es

/-- The instants that the dwell of the state `code` lasts, where a time unit lasts `unit` instants (R107, R131.1). -/
def dwellSpan (b : Block) (unit : Nat) (code : StateCode) : Except Refusal Nat :=
  (memReadDwell b code).map fun d => d.toNat * unit

/-- S after one edge, by the edge function. -/
def codeAfter (b : Block) (code : StateCode) (o : Opw) : Except Refusal StateCode :=
  edge b (Opw.rst o) (Opw.adv o) (Opw.sensor o) code

/-- Duty 1, dwell fidelity (R131.1): adv is 1 at an edge only if at least the dwell of S has passed since the last edge
that loaded S, which came at `since`. -/
def dwellFaithful (b : Block) (unit : Nat) : StateCode → Nat → List TimedEdge → Prop
  | _, _, [] => True
  | code, since, e :: es =>
    (Opw.adv e.opw = true → ∃ d, dwellSpan b unit code = .ok d ∧ since + d ≤ e.time) ∧
    ∃ v, codeAfter b code e.opw = .ok v ∧
      dwellFaithful b unit v (if loadsS e.opw then e.time else since) es

/-- adv is 0 at every edge before the instant `t`, up to the next edge that loads S. -/
def quietUntil (t : Nat) : List TimedEdge → Prop
  | [] => True
  | e :: es => (e.time < t → Opw.adv e.opw = false) ∧ (loadsS e.opw = false → quietUntil t es)

/-- Duty 2, one transition per dwell (R131.2): after an ADVANCE edge, adv is 0 until a new full dwell has passed. -/
def oneTransitionPerDwell (b : Block) (unit : Nat) : StateCode → List TimedEdge → Prop
  | _, [] => True
  | code, e :: es =>
    ∃ v, codeAfter b code e.opw = .ok v ∧
      ((sampledWord e.opw).isSome = true → ∃ d, dwellSpan b unit v = .ok d ∧ quietUntil (e.time + d) es) ∧
      oneTransitionPerDwell b unit v es

/-- Duty 3, progress (R131.3), of an endless sequence of edges: after every edge that loads S, adv is 1 at some edge,
with rst 0 at that edge. -/
def progress (edges : Nat → Opw) : Prop :=
  ∀ n, loadsS (edges n) = true → ∃ m, n < m ∧ Opw.rst (edges m) = false ∧ Opw.adv (edges m) = true

/-- The Timing Service keeps duties 1 and 2 along a run with the platform's time unit (R131, R132). Duty 4, no upper
bound, takes nothing away: any delay at or above the dwell is admitted. -/
def timingKept (b : Block) (code : StateCode) (since : Nat) (es : List TimedEdge) : Prop :=
  timesRise since es ∧ dwellFaithful b Config.timeUnit code since es ∧
    oneTransitionPerDwell b Config.timeUnit code es

/-- S never changes before the dwell of the state being left has passed since S was loaded: the dwell-time fidelity
property of the source's section 8 (95_test_vectors.md E5, R131.1). -/
def changesOnlyAfterDwell (b : Block) (unit : Nat) : StateCode → Nat → List TimedEdge → Prop
  | _, _, [] => True
  | code, since, e :: es =>
    ∃ v, codeAfter b code e.opw = .ok v ∧
      (v ≠ code → ∃ d, dwellSpan b unit code = .ok d ∧ since + d ≤ e.time) ∧
      changesOnlyAfterDwell b unit v (if loadsS e.opw then e.time else since) es

end Sys2Proof.Machine
end

