-- ==== Sys2Proof/Certificates/Slice0/Obligations.lean ====
section
/-! DEFINITION. The statements for the provers, each with the rule of spec/ it formalises. -/

open Sys2Proof Sys2Proof.Machine

/-! ## Encoding -/

/-- Sample words of 95_test_vectors.md section 2.1, written out bit by bit, decode to their operations. A sanity
statement. -/
def Obligations.DecodeOfSampleWords : Prop :=
  decode 0b00000 = .hold ∧ decode 0b00111 = .hold ∧ decode 0b01000 = .adv 0 ∧ decode 0b01010 = .adv 2 ∧
  decode 0b01111 = .adv 7 ∧ decode 0b10000 = .reset ∧ decode 0b11000 = .reset ∧ decode 0b11111 = .reset ∧
  decode 0b10101 = .reset

/-- R68: every word is of exactly one row of the opcode table, that of its operation; the conditions on r and a decide
which; ADVANCE's operand is bits 2:0; RESET wins. -/
def Obligations.DecodeFollowsOpcodeTable : Prop :=
  ∀ o : Opw,
    (opcodeTable.filter fun r => r.admits o).map OpcodeRow.mnemonic = [mnemonic (decode o)] ∧
    (o[4] = true → decode o = .reset) ∧
    (o[4] = false → o[3] = false → decode o = .hold) ∧
    (o[4] = false → o[3] = true → decode o = .adv (o.extractLsb' 0 3))

/-- R69: the 16 words with r = 1 are all RESET, the 8 with r = 0 and a = 0 are all HOLD, the 8 with r = 0 and a = 1 are
ADVANCE, one for each sensor word; the decoder rejects none of the 32. -/
def Obligations.DecodeIsTotalWithFixedCounts : Prop :=
  ((List.range 32).map (BitVec.ofNat 5)).countP (fun o => o[4]) = 16 ∧
  (∀ o : Opw, o[4] = true → decode o = .reset) ∧
  ((List.range 32).map (BitVec.ofNat 5)).countP (fun o => !o[4] && !o[3]) = 8 ∧
  (∀ o : Opw, o[4] = false → o[3] = false → decode o = .hold) ∧
  ((List.range 32).map (BitVec.ofNat 5)).countP (fun o => !o[4] && o[3]) = 8 ∧
  (∀ w : SensorWord, ((List.range 32).map (BitVec.ofNat 5)).filter (fun o => decode o == .adv w) = [0b01#2 ++ w]) ∧
  (∀ o : Opw, decodeTableWord 5 o.toNat = some (decode o))

/-- Decode and encode agree on every well-formed instruction, through the 5-bit word and through its 8-bit container. -/
def Obligations.DecodeEncodeRoundTrip : Prop :=
  ∀ i : Instr, i.wellFormed = true →
    decode (encode i) = i ∧ decodeTableWord 5 (encode i).toNat = some i ∧ decodeTableWord 8 (encode i).toNat = some i

/-- R62, R71: the bits of ADVANCE's operand are OPW bits 0, 1, 2: east-west car, north-south car, pedestrian. -/
def Obligations.AdvanceOperandBits : Prop :=
  ∀ (o : Opw) (w : SensorWord), decode o = .adv w →
    eastWestCar w = o[0] ∧ northSouthCar w = o[1] ∧ pedestrianRequest w = o[2]

/-- R60, R61, R126: the code of a state identifier is its number, read back as that state, and the code of S in every
state; the codes 11..15 name no state. -/
def Obligations.StateCodeIsItsIdentifier : Prop :=
  (∀ s : StateId, (codeOf s).toNat = s.val ∧ stateOf (codeOf s) = .ok s) ∧
  (∀ s : State, stateOf s.code = .ok s.S ∧ s.code.toNat = s.S.val) ∧
  (∀ c : StateCode, 10 < c.toNat → stateOf c = .error (.illegalStateCode c))

/-! ## One edge -/

/-- A step runs the decoded instruction: the word driven at the edge, on the state with that word taken. -/
def Obligations.StepRunsTheDrivenWord : Prop :=
  ∀ (s : State) (o : Opw) (os : List Opw), s.inputs = o :: os →
    step s = exec (decode o) { s with inputs := os }

/-- With nothing given to drive, the step runs the free word of the environment (the model's choice, log entry 7). -/
def Obligations.StepRunsAFreeWordWhenNoneIsDriven : Prop :=
  ∀ s : State, s.inputs = [] →
    step s = exec (decode (Config.envInput s.drawn)) { s with drawn := s.drawn + 1 }

/-- The model's choice (log entry 7): an instruction placed by `withFetchWord` is what the very next step runs, and
nothing else is changed. -/
def Obligations.FetchWordRunsAtTheNextStep : Prop :=
  ∀ (s : State) (i : Instr), i.wellFormed = true → step (s.withFetchWord 8 (encode i).toNat) = exec i s

/-- R82: RESET completes in every state: S is 0 and nothing else changes. Every word with r = 1 does so, whatever its a
and w, and its edge loads S, from which the Timing Service times the dwell anew (R131). On the register it gives code 0
from any of the 16 codes, an illegal one too. -/
def Obligations.ResetLoadsTheStartState : Prop :=
  (∀ s : State, exec .reset s = .next { s with S := 0 }) ∧
  (∀ (s : State) (o : Opw) (os : List Opw), o[4] = true → s.inputs = o :: os →
    step s = .next { s with S := 0, inputs := os } ∧ loadsS o = true) ∧
  (∀ (b : Block) (c : StateCode) (o : Opw), o[4] = true → registerEdge b (decode o) c = .ok 0)

/-- R83: HOLD completes in every state and changes nothing. -/
def Obligations.HoldLeavesTheWholeState : Prop :=
  ∀ s : State, exec .hold s = .next s

/-- R84: ADVANCE completes in every state and for every sensor word: S is the state whose code is the entry of the row
being left, and nothing else changes. -/
def Obligations.AdvanceLoadsTheTableEntry : Prop :=
  ∀ (s : State) (w : SensorWord), ∃ i : StateId,
    codeOf i = s.block.table.entry s.S w ∧ exec (.adv w) s = .next { s with S := i }

/-- R81: the edge function, on every input in every state; one step is one edge. -/
def Obligations.StepIsTheEdgeFunction : Prop :=
  ∀ (s : State) (o : Opw) (os : List Opw), s.inputs = o :: os →
    ∃ i : StateId,
      codeOf i = (if o[4] = true then 0
        else if o[3] = true then s.block.table.entry s.S (o.extractLsb' 0 3)
        else s.code) ∧
      step s = .next { s with S := i, inputs := os }

/-- R128: with rst = 1 and adv = 1 at one edge RESET is taken; the sensor word is not sampled. -/
def Obligations.ResetWinsOverAdvance : Prop :=
  ∀ (s : State) (w : SensorWord) (os : List Opw), s.inputs = (0b11#2 ++ w) :: os →
    sampledWord (0b11#2 ++ w) = none ∧ step s = .next { s with S := 0, inputs := os }

/-- R126, R82 and the model's choice for HOLD (log entry 2): on a register code 11..15 NEXT, the decoders, HOLD and ADVANCE
are refused by name, and RESET leaves it for 0. -/
def Obligations.IllegalCodesAreRefusedButForReset : Prop :=
  ∀ (b : Block) (c : StateCode) (w : SensorWord), 10 < c.toNat →
    next b c w = .error (.illegalStateCode c) ∧
    memReadTraffic b c = .error (.illegalStateCode c) ∧
    memReadWalk b c = .error (.illegalStateCode c) ∧
    memReadDwell b c = .error (.illegalStateCode c) ∧
    registerEdge b (.adv w) c = .error (.illegalStateCode c) ∧
    registerEdge b .hold c = .error (.illegalStateCode c) ∧
    registerEdge b .reset c = .ok 0

/-- R147: a self-transition leaves S, the outputs and the dwell as they are, and yet its edge loads S. -/
def Obligations.SelfTransitionLeavesTheState : Prop :=
  ∀ (s : State) (w : SensorWord), s.block.table.entry s.S w = s.code →
    exec (.adv w) s = .next s ∧ loadsS (encode (.adv w)) = true

/-! ## The table -/

/-- R24: the entries the source fixes stand in the table of every block. -/
def Obligations.FixedEntriesStandInEveryBlock : Prop :=
  ∀ b : Block,
    allWords.map (b.table.entry 0) = [0, 0, 1, 1, 1, 1, 1, 1] ∧
    allWords.map (b.table.entry 9) = [4, 10, 10, 10, 4, 10, 10, 10] ∧
    b.table.entry 4 1 = 5

/-- R85, R86 (Total, Pure): NEXT answers a code in 0..10 for all 88 pairs, the TT entry, and depends on TT alone of the
ROMs. -/
def Obligations.NextIsTotalAndReadsTtAlone : Prop :=
  (∀ (b : Block) (i : StateId) (w : SensorWord),
    next b (codeOf i) w = .ok (b.table.entry i w) ∧ (b.table.entry i w).toNat ≤ 10) ∧
  (∀ (b b' : Block) (c : StateCode) (w : SensorWord), b.table.tt = b'.table.tt → next b c w = next b' c w)

/-- R124: a table has no verdict exactly when the six checks hold, with the lamp names of the layouts in force; under the
default layouts these are the rule's own bit numbers. -/
def Obligations.WellFormedIffTheSixChecks : Prop :=
  (∀ (l : Layouts) (t : Table), verdict l t = none ↔
    (∀ (s : StateId) (w : SensorWord), (t.entry s w).toNat ≤ 10) ∧
    (∀ s : StateId, ¬ ((trafficLamps l.traffic (t.traffic s)).nsGreen = true ∧
      (trafficLamps l.traffic (t.traffic s)).ewGreen = true)) ∧
    (∀ s : StateId, nsLit (trafficLamps l.traffic (t.traffic s)) = 1 ∧
      ewLit (trafficLamps l.traffic (t.traffic s)) = 1) ∧
    (∀ s : StateId, walkLit (walkLamps l.walk (t.walk s)) = 1) ∧
    (∀ s : StateId, 1 ≤ (t.dwell s).toNat) ∧
    (allWords.map (t.entry 0) = [0, 0, 1, 1, 1, 1, 1, 1] ∧
      allWords.map (t.entry 9) = [4, 10, 10, 10, 4, 10, 10, 10] ∧ t.entry 4 1 = 5 ∧
      ∀ s : StateId, 5 ≤ s.val → s.val ≤ 9 → (t.dwell s).toNat = 5)) ∧
  (∀ p : TrafficPattern,
    ((trafficLamps {} p).nsGreen = true ∧ (trafficLamps {} p).ewGreen = true ↔ p[2] = true ∧ p[5] = true) ∧
    nsLit (trafficLamps {} p) = popcount (p.extractLsb' 0 3) ∧
    ewLit (trafficLamps {} p) = popcount (p.extractLsb' 3 3)) ∧
  (∀ p : WalkPattern, walkLit (walkLamps {} p) = popcount p)


/-- R125: the verdict names the lowest-numbered failing check, in it the lowest state, then the lowest sensor word, and
records the value found there (R121). That WF6 is searched state by state over both of its fields, as the last two
cases say, is the model's reading of the rule (log entry 11, DEDUCED). -/
def Obligations.VerdictNamesTheLowestFailure : Prop :=
  ∀ (l : Layouts) (t : Table) (v : Verdict), verdict l t = some v →
    match v with
    | .wf1 s w e =>
      e = t.entry s w ∧ ¬ e ≤ 10 ∧ (∀ s' < s, ∀ w', t.entry s' w' ≤ 10) ∧ ∀ w' < w, t.entry s w' ≤ 10
    | .wf2 s p =>
      WF1 t ∧ p = t.traffic s ∧ bothGreen (trafficLamps l.traffic p) = true ∧
        ∀ s' < s, bothGreen (trafficLamps l.traffic (t.traffic s')) = false
    | .wf3 s p =>
      WF1 t ∧ WF2 l t ∧ p = t.traffic s ∧
        ¬ (nsLit (trafficLamps l.traffic p) = 1 ∧ ewLit (trafficLamps l.traffic p) = 1) ∧
        ∀ s' < s, nsLit (trafficLamps l.traffic (t.traffic s')) = 1 ∧ ewLit (trafficLamps l.traffic (t.traffic s')) = 1
    | .wf4 s p =>
      WF1 t ∧ WF2 l t ∧ WF3 l t ∧ p = t.walk s ∧ walkLit (walkLamps l.walk p) ≠ 1 ∧
        ∀ s' < s, walkLit (walkLamps l.walk (t.walk s')) = 1
    | .wf5 s d =>
      WF1 t ∧ WF2 l t ∧ WF3 l t ∧ WF4 l t ∧ d = (t.dwell s).toNat ∧ d = 0 ∧ ∀ s' < s, 1 ≤ (t.dwell s').toNat
    | .wf6Tt s w e =>
      WF1 t ∧ WF2 l t ∧ WF3 l t ∧ WF4 l t ∧ WF5 t ∧ e = t.entry s w ∧ (∃ x ∈ fixedEntry s w, e ≠ x) ∧
        (∀ w' < w, ∀ x ∈ fixedEntry s w', t.entry s w' = x) ∧
        ∀ s' < s, (∀ w', ∀ x ∈ fixedEntry s' w', t.entry s' w' = x) ∧ ∀ d ∈ fixedDwell s', (t.dwell s').toNat = d
    | .wf6Dwell s d =>
      WF1 t ∧ WF2 l t ∧ WF3 l t ∧ WF4 l t ∧ WF5 t ∧ d = (t.dwell s).toNat ∧ (∃ x ∈ fixedDwell s, d ≠ x) ∧
        ∀ s' < s, (∀ w', ∀ x ∈ fixedEntry s' w', t.entry s' w' = x) ∧ ∀ x ∈ fixedDwell s', (t.dwell s').toNat = x

/-- R122: a table that fails a check is refused with its verdict and no block has it; a table that passes gives the
block with that table. -/
def Obligations.FailingTablesGiveNoBlock : Prop :=
  (∀ (l : Layouts) (t : Table) (v : Verdict), verdict l t = some v →
    buildBlock l t = .error (.tableRefused v) ∧ ∀ b : Block, ¬ (b.table = t ∧ b.layouts = l)) ∧
  (∀ (l : Layouts) (t : Table), verdict l t = none →
    ∃ b, buildBlock l t = .ok b ∧ b.table = t ∧ b.layouts = l)

/-- R8, R27: the dwell port of every block is wide enough for 5 and for its largest dwell. -/
def Obligations.DwellPortIsWideEnough : Prop :=
  ∀ b : Block, 3 ≤ b.table.dwellW ∧ ∀ i : StateId, (b.table.dwell i).toNat < 2 ^ b.table.dwellW

/-! ## Frame and invariants -/

/-- What an instruction leaves unchanged, RESET, HOLD and ADV alike: everything but S; HOLD leaves S too. No form
stores to a ROM: every read of every ROM gives what it gave before. -/
def Obligations.InstructionsChangeSAlone : Prop :=
  ∀ (i : Instr) (s t : State), exec i s = .next t →
    t = { s with S := t.S } ∧ (i = .hold → t.S = s.S) ∧
    (∀ x, memReadTT t.block x = memReadTT s.block x) ∧
    (∀ c, memReadTraffic t.block c = memReadTraffic s.block c) ∧
    (∀ c, memReadWalk t.block c = memReadWalk s.block c) ∧
    (∀ c, (memReadDwell t.block c).map BitVec.toNat = (memReadDwell s.block c).map BitVec.toNat)

/-- R30: no edge and no number of edges changes the FSM Table. -/
def Obligations.TheTableIsNeverWritten : Prop :=
  ∀ (n : Nat) (s t : State), run n s = .next t → t.block.table = s.block.table

/-- R61, R89, the invariant on the 4-bit register and on the machine: from a legal code every edge answers a legal code;
every step answers a next state, whose code is the one the register operation answers. -/
def Obligations.StepKeepsTheCodeLegal : Prop :=
  (∀ (b : Block) (i : Instr) (c : StateCode), c.toNat ≤ 10 →
    ∃ v, registerEdge b i c = .ok v ∧ v.toNat ≤ 10) ∧
  (∀ s : State, s.Legal → ∃ t, step s = .next t ∧
    registerEdge s.block (decode (takeInputs s).1) s.code = .ok t.code ∧ t.Legal)

/-- R32: the state after reset holds code 0, which is legal (R21). R7, R143.1: its layouts are the defaults, and its table
passed the checks under them; that the reset state holds an open table of that kind is the model's choice (log entry 3,
DESIGN CHOICE), and that it holds the layouts beside it is the model's reading (log entry 4, DEDUCED). -/
def Obligations.ResetStateIsLegal : Prop :=
  State.reset.code = 0 ∧ State.reset.Legal ∧ State.reset.block.layouts = {} ∧ verdict {} State.reset.block.table = none

/-- R89: from any code of the register, an illegal one too, after a first edge that is a RESET every number of later edges
is carried out and the code is in 0..10 after each. -/
def Obligations.AfterFirstResetTheCodeStaysLegal : Prop :=
  ∀ (b : Block) (c : StateCode) (o : Opw) (os : List Opw), isReset o = true →
    ∃ v, (o :: os).foldlM (fun x e => registerEdge b (decode e) x) c = .ok v ∧ v.toNat ≤ 10 ∧
      ∃ s t, launchAtReset b c o os = some s ∧ run os.length s = .next t ∧ t.code = v

/-- R120, R152: the block never stops, whatever is driven: every number of edges is carried out, from every state. -/
def Obligations.TheBlockNeverStops : Prop :=
  ∀ (s : State) (n : Nat), ∃ t, run n s = .next t

/-- R61, R86, R89, R141: every reachable state holds a legal code, and NEXT answers a legal code from it for every sensor
word. -/
def Obligations.ReachableStatesAreLegal : Prop :=
  ∀ s : State, Reachable s → s.Legal ∧ ∀ w, ∃ v, next s.block s.code w = .ok v ∧ v.toNat ≤ 10

/-! ## Outputs -/

/-- R101, R102, R107, R108: the ports of every state show the record of S, and the 4 bits of S. -/
def Obligations.PortsShowTheRecordOfS : Prop :=
  ∀ s : State,
    trafficOut s = .ok (s.block.table.traffic s.S) ∧ walkOut s = .ok (s.block.table.walk s.S) ∧
    dwellOut s = .ok (s.block.table.dwell s.S) ∧ (stateOut s).toNat = s.S.val

/-- R100: every output is a function of S (and the constant block) alone, whatever the inputs are. -/
def Obligations.OutputsDependOnSAlone : Prop :=
  ∀ s t : State, s.block = t.block → s.S = t.S →
    trafficOut s = trafficOut t ∧ walkOut s = walkOut t ∧ trafficLampsOut s = trafficLampsOut t ∧
    walkLampsOut s = walkLampsOut t ∧ stateOut s = stateOut t ∧
    (dwellOut s).map BitVec.toNat = (dwellOut t).map BitVec.toNat

/-- R103: the named lamps of a state are the bits of its patterns that the layouts name; under the default layouts
they are the rule's bits; and the rule's example. -/
def Obligations.NamedLampsAreTheLayoutBits : Prop :=
  (∀ s : State, s.block.layouts = {} →
    trafficLampsOut s = .ok ⟨(s.block.table.traffic s.S)[0], (s.block.table.traffic s.S)[1], (s.block.table.traffic s.S)[2],
      (s.block.table.traffic s.S)[3], (s.block.table.traffic s.S)[4], (s.block.table.traffic s.S)[5]⟩ ∧
    walkLampsOut s = .ok ⟨(s.block.table.walk s.S)[0], (s.block.table.walk s.S)[1]⟩) ∧
  (∀ (s : State) (l : TrafficLayout) (m : WalkLayout), s.block.layouts = ⟨l, m⟩ →
    trafficLampsOut s = .ok ⟨(s.block.table.traffic s.S)[l.nsRed], (s.block.table.traffic s.S)[l.nsYellow],
      (s.block.table.traffic s.S)[l.nsGreen], (s.block.table.traffic s.S)[l.ewRed],
      (s.block.table.traffic s.S)[l.ewYellow], (s.block.table.traffic s.S)[l.ewGreen]⟩ ∧
    walkLampsOut s = .ok ⟨(s.block.table.walk s.S)[m.walk], (s.block.table.walk s.S)[m.dontWalk]⟩) ∧
  trafficLamps {} 0b001100 = ⟨false, false, true, true, false, false⟩

/-- R104: in every reachable state the green lamps of the two directions are never lit together. -/
def Obligations.NeverBothGreen : Prop :=
  ∀ s : State, Reachable s →
    ∃ l, trafficLampsOut s = .ok l ∧ ¬ (l.nsGreen = true ∧ l.ewGreen = true)

/-- R105: in every reachable state exactly one lamp of each direction and exactly one pedestrian lamp is lit. -/
def Obligations.ExactlyOneLampIsLit : Prop :=
  ∀ s : State, Reachable s →
    ∃ l p, trafficLampsOut s = .ok l ∧ walkLampsOut s = .ok p ∧
      [l.nsRed, l.nsYellow, l.nsGreen].count true = 1 ∧
      [l.ewRed, l.ewYellow, l.ewGreen].count true = 1 ∧
      [p.walk, p.dontWalk].count true = 1

/-- R27, R107: the dwell output is never 0, and 5 in the blink states 5..9. -/
def Obligations.DwellIsPositiveAndFiveWhenBlinking : Prop :=
  ∀ s : State, ∃ d, dwellOut s = .ok d ∧ 1 ≤ d.toNat ∧ (5 ≤ s.code → s.code ≤ 9 → d.toNat = 5)

/-! ## Sequences of edges -/

/-- R83: any number of HOLD edges, whatever sensor words they carry, leaves S, the block and so the outputs as they
were; the edges are only taken from the inputs. -/
def Obligations.HoldEdgesKeepTheState : Prop :=
  ∀ (s : State) (os rest : List Opw), (∀ o ∈ os, o[4] = false ∧ o[3] = false) → s.inputs = os ++ rest →
    run os.length s = .next { s with inputs := rest }

/-- R150, R140: while rst is held at 1, S is 0 after every edge and the outputs are those of state 0, from any state. -/
def Obligations.HeldResetShowsStateZero : Prop :=
  ∀ (s : State) (os rest : List Opw), os ≠ [] → (∀ o ∈ os, o[4] = true) → s.inputs = os ++ rest →
    ∃ t, run os.length s = .next t ∧ t.S = 0 ∧ t.block = s.block ∧ t.inputs = rest ∧
      trafficOut t = .ok (t.block.table.traffic 0) ∧ walkOut t = .ok (t.block.table.walk 0) ∧
      dwellOut t = .ok (t.block.table.dwell 0)

/-- The edge view (R81) along any run: the machine's S after the driven edges is the edge function's, edge after edge,
and nothing else has changed. -/
def Obligations.RunIsTheEdgeFunctionIterated : Prop :=
  ∀ s : State, ∃ i : StateId, edgeRun s.block s.code s.inputs = .ok (codeOf i) ∧
    run s.inputs.length s = .next { s with S := i, inputs := [] }

/-- R87: along a run with no RESET edge, S and the outputs seen after the ADVANCE edges are the cycle view's sequences
for the sampled sensor words; they are functions of the table and those words alone, so HOLD edges and their number
change nothing (R11). -/
def Obligations.CycleViewIsTheRunWithoutHolds : Prop :=
  ∀ s : State, (∀ o ∈ s.inputs, isReset o = false) →
    advanceTrace s.inputs.length s = cycleTrace s.block s.code (s.inputs.filterMap sampledWord) ∧
    ∃ i : StateId, cycleRun s.block s.code (s.inputs.filterMap sampledWord) = .ok (codeOf i) ∧
      run s.inputs.length s = .next { s with S := i, inputs := [] }

/-- R29, R149: a sensor word at an edge that does not sample it (a RESET or a HOLD edge) has no effect then or later: two
runs of as many edges, with the same rst and adv at each, and the same sensor word at each edge with rst = 0 and
adv = 1, end alike. -/
def Obligations.UnsampledSensorWordsHaveNoEffect : Prop :=
  ∀ (s : State) (os os' : List Opw),
    List.Forall₂ (fun o o' => o[4] = o'[4] ∧ o[3] = o'[3] ∧
      (o[4] = false → o[3] = true → o.extractLsb' 0 3 = o'.extractLsb' 0 3)) os os' →
    run os.length { s with inputs := os } = run os'.length { s with inputs := os' }

/-- R145: adv held at 1 for the edges of `ws` makes one transition at each of them: S goes through NEXT once an edge. -/
def Obligations.HeldAdvanceMakesOneTransitionPerEdge : Prop :=
  ∀ (s : State) (ws : List SensorWord), s.inputs = ws.map (fun w => encode (.adv w)) →
    ∃ i : StateId, ws.foldlM (fun c w => next s.block c w) s.code = .ok (codeOf i) ∧
      run ws.length s = .next { s with S := i, inputs := [] }

/-- R73: `CYCLE k, w` run from state i waits k edges and then takes the transition for w. -/
def Obligations.CycleLineWaitsThenAdvances : Prop :=
  ∀ (b : Block) (i : StateId) (k w : Nat), (Line.cycle k w).wellFormed = true →
    (lineEdges (.cycle k w)).length = k + 1 ∧
    run k (launchState b i (lineEdges (.cycle k w))) = .next (launchState b i (lineEdges (.adv w))) ∧
    ∃ j : StateId, codeOf j = b.table.entry i (BitVec.ofNat 3 w) ∧
      run (k + 1) (launchState b i (lineEdges (.cycle k w))) = .next (launchState b j [])

/-- R141, R73: every well-formed program that has `START s`, or whose first edge is a RESET, is launched on the given
block. With `START s` the run starts at S = s with all its edges to come; without it, at S = 0 after the RESET edge,
with the other edges to come. -/
def Obligations.LaunchKeepsThePremises : Prop :=
  (∀ (p : Program) (b : Block) (n : Nat), p.wellFormed = true → p.start = some n →
    ∃ i : StateId, i.val = n ∧ launch p b = some (launchState b i (programEdges p))) ∧
  (∀ (p : Program) (b : Block) (o : Opw) (os : List Opw), p.wellFormed = true → p.start = none →
    programEdges p = o :: os → launch p b = if isReset o then some (launchState b 0 os) else none)

/-! ## The Timing Service's duties -/

/-- R131 in the model's reading of its duties (log entry 16, DEDUCED): duty 1, of adv alone, with rising instants implies
duty 2, which ends at the next edge that loads S. -/
def Obligations.DwellFidelityGivesOneTransitionPerDwell : Prop :=
  ∀ (b : Block) (unit since : Nat) (c : StateCode) (es : List TimedEdge),
    timesRise since es → dwellFaithful b unit c since es → oneTransitionPerDwell b unit c es

/-- The dwell-time fidelity property of the source (95_test_vectors.md E5), under duty 1 in the model's reading (log
entry 16, DEDUCED) and with no mid-run reset: S never changes before the dwell of the state being left has passed. -/
def Obligations.StateChangesOnlyAfterItsDwell : Prop :=
  ∀ (b : Block) (unit since : Nat) (c : StateCode) (es : List TimedEdge),
    dwellFaithful b unit c since es → (∀ e ∈ es, isReset e.opw = false) → changesOnlyAfterDwell b unit c since es

/-- R131.4, with the duties in the model's reading (log entries 6 and 16): there is no upper bound: an ADVANCE after any delay at or above the dwell keeps every duty on timing. -/
def Obligations.AnyDelayAboveTheDwellIsAdmitted : Prop :=
  ∀ (b : Block) (i : StateId) (since delay : Nat) (w : SensorWord),
    0 < delay → (b.table.dwell i).toNat * Config.timeUnit ≤ delay →
    timingKept b (codeOf i) since [⟨since + delay, encode (.adv w)⟩]

/-- R131.3, with duty 3 in the model's reading (log entry 16): under progress, once S has been loaded the ADVANCE edges never end. -/
def Obligations.ProgressGivesEndlessAdvances : Prop :=
  ∀ edges : Nat → Opw, progress edges → loadsS (edges 0) = true →
    ∀ n, ∃ m, n ≤ m ∧ (sampledWord (edges m)).isSome = true
end

