-- ==== Sys2Proof/Laws/State.lean ====
section
/-! SUPPORT. One lemma for each field after each update of State, and what taking an edge's inputs does. -/

namespace Sys2Proof.Machine

@[simp] theorem State.setS_S (s : State) (v : StateId) : (s.setS v).S = v := rfl
@[simp] theorem State.setS_block (s : State) (v : StateId) : (s.setS v).block = s.block := rfl
@[simp] theorem State.setS_inputs (s : State) (v : StateId) : (s.setS v).inputs = s.inputs := rfl
@[simp] theorem State.setS_drawn (s : State) (v : StateId) : (s.setS v).drawn = s.drawn := rfl
@[simp] theorem State.setS_code (s : State) (v : StateId) : (s.setS v).code = codeOf v := rfl
@[simp] theorem State.setS_same (s : State) : s.setS s.S = s := rfl
@[simp] theorem State.setS_setS (s : State) (v u : StateId) : (s.setS v).setS u = s.setS u := rfl

@[simp] theorem State.reset_S : State.reset.S = Config.startState := rfl
@[simp] theorem State.reset_block : State.reset.block = hardwareBlock := rfl
@[simp] theorem State.reset_inputs : State.reset.inputs = [] := rfl
@[simp] theorem State.reset_drawn : State.reset.drawn = 0 := rfl

@[simp] theorem launchState_S (b : Block) (c : StateId) (os : List Opw) : (launchState b c os).S = c := rfl
@[simp] theorem launchState_code (b : Block) (c : StateId) (os : List Opw) : (launchState b c os).code = codeOf c := rfl
@[simp] theorem launchState_block (b : Block) (c : StateId) (os : List Opw) : (launchState b c os).block = b := rfl
@[simp] theorem launchState_inputs (b : Block) (c : StateId) (os : List Opw) : (launchState b c os).inputs = os := rfl
@[simp] theorem launchState_drawn (b : Block) (c : StateId) (os : List Opw) : (launchState b c os).drawn = 0 := rfl

@[simp] theorem State.withFetchWord_S (s : State) (n w : Nat) : (s.withFetchWord n w).S = s.S := rfl
@[simp] theorem State.withFetchWord_block (s : State) (n w : Nat) : (s.withFetchWord n w).block = s.block := rfl
@[simp] theorem State.withFetchWord_drawn (s : State) (n w : Nat) : (s.withFetchWord n w).drawn = s.drawn := rfl
@[simp] theorem State.withFetchWord_inputs (s : State) (n w : Nat) :
    (s.withFetchWord n w).inputs = BitVec.ofNat 5 (w % 2 ^ n) :: s.inputs := rfl

/-- A word that the environment was given to drive is taken first. -/
theorem takeInputs_cons {s : State} {o : Opw} {os : List Opw} (h : s.inputs = o :: os) :
    takeInputs s = (o, { s with inputs := os }) := by simp [takeInputs, h]

/-- With nothing given, the word is the next free one. -/
theorem takeInputs_nil {s : State} (h : s.inputs = []) :
    takeInputs s = (Config.envInput s.drawn, { s with drawn := s.drawn + 1 }) := by simp [takeInputs, h]

/-- Taking the inputs leaves S alone. -/
@[simp] theorem takeInputs_S (s : State) : (takeInputs s).2.S = s.S := by
  unfold takeInputs; split <;> rfl

/-- Taking the inputs leaves the register's code alone. -/
@[simp] theorem takeInputs_code (s : State) : (takeInputs s).2.code = s.code := congrArg codeOf (takeInputs_S s)

/-- Taking the inputs leaves the block alone. -/
@[simp] theorem takeInputs_block (s : State) : (takeInputs s).2.block = s.block := by
  unfold takeInputs; split <;> rfl

end Sys2Proof.Machine
end

