-- ==== Sys2Proof/Laws/Table.lean ====
section
/-! SUPPORT. What the checks of R124 say: each failure search answers none exactly when its check holds. -/

namespace Sys2Proof.Machine

@[simp] theorem mem_allStates (s : StateId) : s ∈ allStates := by revert s; decide

@[simp] theorem mem_allWords (w : SensorWord) : w ∈ allWords := by revert w; decide

theorem failUnless_eq_none {ok : Bool} {v : Verdict} : failUnless ok v = none ↔ ok = true := by
  cases ok <;> simp [failUnless]

theorem failUnless_eq_some {ok : Bool} {v u : Verdict} : failUnless ok v = some u ↔ ok = false ∧ v = u := by
  cases ok <;> simp [failUnless]

theorem meetsFixed_iff {α : Type} [DecidableEq α] {fixed : Option α} {x : α} :
    meetsFixed fixed x = true ↔ ∀ v ∈ fixed, x = v := by
  cases fixed <;> simp [meetsFixed]

theorem failure1_eq_none {t : Table} : failure1 t = none ↔ WF1 t := by
  simp only [failure1, List.findSome?_eq_none_iff, failUnless_eq_none, mem_allStates, mem_allWords, forall_const,
    decide_eq_true_eq]

theorem failure2_eq_none {l : Layouts} {t : Table} : failure2 l t = none ↔ WF2 l t := by
  simp [failure2, failUnless_eq_none]

theorem failure3_eq_none {l : Layouts} {t : Table} : failure3 l t = none ↔ WF3 l t := by
  simp [failure3, failUnless_eq_none]

theorem failure4_eq_none {l : Layouts} {t : Table} : failure4 l t = none ↔ WF4 l t := by
  simp [failure4, failUnless_eq_none]

theorem failure5_eq_none {t : Table} : failure5 t = none ↔ WF5 t := by
  simp [failure5, failUnless_eq_none]

theorem failure6_eq_none {t : Table} : failure6 t = none ↔ WF6 t := by
  simp only [failure6, List.findSome?_eq_none_iff, mem_allStates, mem_allWords, forall_const, Option.or_eq_none_iff,
    failUnless_eq_none, meetsFixed_iff, WF6]
  exact ⟨fun h => ⟨fun s => (h s).1, fun s => (h s).2⟩, fun h s => ⟨h.1 s, h.2 s⟩⟩

/-- A table has no verdict exactly when no search finds a failure. -/
theorem verdict_eq_none {l : Layouts} {t : Table} :
    verdict l t = none ↔ failure1 t = none ∧ failure2 l t = none ∧ failure3 l t = none ∧ failure4 l t = none ∧
      failure5 t = none ∧ failure6 t = none := by
  simp [verdict, Option.or_eq_none_iff]

/-! The checks hold of the table of every block that exists. -/

theorem Block.wf1 (b : Block) : WF1 b.table := entry_le_of_verdict b.wf
theorem Block.wf2 (b : Block) : WF2 b.layouts b.table := failure2_eq_none.mp (verdict_eq_none.mp b.wf).2.1
theorem Block.wf3 (b : Block) : WF3 b.layouts b.table := failure3_eq_none.mp (verdict_eq_none.mp b.wf).2.2.1
theorem Block.wf4 (b : Block) : WF4 b.layouts b.table := failure4_eq_none.mp (verdict_eq_none.mp b.wf).2.2.2.1
theorem Block.wf5 (b : Block) : WF5 b.table := failure5_eq_none.mp (verdict_eq_none.mp b.wf).2.2.2.2.1
theorem Block.wf6 (b : Block) : WF6 b.table := failure6_eq_none.mp (verdict_eq_none.mp b.wf).2.2.2.2.2

end Sys2Proof.Machine
end

