-- ==== Sys2Proof/Laws/Ops.lean ====
section
/-! SUPPORT. One lemma for each shared operation: what it answers, in legal codes and in illegal ones. -/

namespace Sys2Proof.Machine

theorem codeOf_le (s : StateId) : codeOf s ≤ 10 := by revert s; decide

/-- A code that names a state is that state's code. -/
theorem stateOf_eq_ok {c : StateCode} {i : StateId} : stateOf c = .ok i ↔ c = codeOf i := by
  revert c i; decide

theorem stateOf_illegal {c : StateCode} (h : ¬ c ≤ 10) : stateOf c = .error (.illegalStateCode c) := by
  have h' : ¬ c.toNat < 11 := fun hc => h (BitVec.le_def.mpr (Nat.le_of_lt_succ hc))
  simp [stateOf, h']

theorem next_illegal {b : Block} {c : StateCode} {w : SensorWord} (h : ¬ c ≤ 10) :
    next b c w = .error (.illegalStateCode c) := by simp [next_eq, stateOf_illegal h, Except.map]

/-- NEXT answers a legal code, and only from a legal code. -/
theorem next_ok {b : Block} {c v : StateCode} {w : SensorWord} (h : next b c w = .ok v) : c ≤ 10 ∧ v ≤ 10 := by
  by_cases hc : c ≤ 10
  · obtain ⟨s, rfl⟩ := legal_iff_codeOf.mp hc
    simp only [next_codeOf, Except.ok.injEq] at h
    exact ⟨hc, h ▸ b.wf1 s w⟩
  · rw [next_illegal hc] at h; cases h

@[simp] theorem memReadTraffic_codeOf (b : Block) (s : StateId) :
    memReadTraffic b (codeOf s) = .ok (b.table.traffic s) := by simp [memReadTraffic, Except.map]

@[simp] theorem memReadWalk_codeOf (b : Block) (s : StateId) :
    memReadWalk b (codeOf s) = .ok (b.table.walk s) := by simp [memReadWalk, Except.map]

@[simp] theorem memReadDwell_codeOf (b : Block) (s : StateId) :
    memReadDwell b (codeOf s) = .ok (b.table.dwell s) := by simp [memReadDwell, Except.map]

/-! The register operations, on any code. -/

@[simp] theorem resetCode_eq (c : StateCode) : resetCode c = .ok (codeOf Config.startState) := rfl

@[simp] theorem holdCode_codeOf (i : StateId) : holdCode (codeOf i) = .ok (codeOf i) := by
  simp [holdCode, Except.map]

theorem holdCode_illegal {c : StateCode} (h : ¬ c ≤ 10) : holdCode c = .error (.illegalStateCode c) := by
  simp [holdCode, stateOf_illegal h, Except.map]

@[simp] theorem advanceCode_codeOf (b : Block) (w : SensorWord) (i : StateId) :
    advanceCode b w (codeOf i) = .ok (b.table.entry i w) := by simp [advanceCode]

theorem advanceCode_illegal {b : Block} {c : StateCode} {w : SensorWord} (h : ¬ c ≤ 10) :
    advanceCode b w c = .error (.illegalStateCode c) := next_illegal h

/-- Every entry of a block's TT is the code of a state (WF1). -/
theorem Block.entry_eq_codeOf (b : Block) (s : StateId) (w : SensorWord) : ∃ i, b.table.entry s w = codeOf i :=
  legal_iff_codeOf.mp (b.wf1 s w)

theorem stateStored_eq {answer : Except Refusal StateCode} (h : ∃ j, answer = .ok (codeOf j)) {j : StateId}
    (hj : answer = .ok (codeOf j)) : stateStored answer h = j := by
  subst hj
  revert h; revert j; decide

/-- The state after an operation is the one whose code the register operation answers. -/
theorem loadRegister_eq {i : Instr} {s : State} {j : StateId} (h : registerEdge s.block i s.code = .ok (codeOf j)) :
    loadRegister i s = s.setS j := by rw [loadRegister, stateStored_eq _ h]

/-- Everything an instruction does: S becomes the state whose code the register operation answers, and nothing else
changes. -/
theorem exec_eq (i : Instr) (s : State) :
    ∃ j, registerEdge s.block i s.code = .ok (codeOf j) ∧ exec i s = .next (s.setS j) := by
  obtain ⟨j, hj⟩ := registerEdge_answers i s
  have he : exec i s = .next (loadRegister i s) := by cases i <;> rfl
  exact ⟨j, hj, by rw [he, loadRegister_eq hj]⟩

/-- The converse: the state whose code the register operation answers is the next state. -/
theorem exec_of_registerEdge {i : Instr} {s : State} {j : StateId}
    (h : registerEdge s.block i s.code = .ok (codeOf j)) : exec i s = .next (s.setS j) := by
  have he : exec i s = .next (loadRegister i s) := by cases i <;> rfl
  rw [he, loadRegister_eq h]

end Sys2Proof.Machine
end

