-- ==== Sys2Proof/Laws/PerInstr.lean ====
section
/-! SUPPORT. Per-instruction statements: the word of an instruction is of its own row of the opcode table and of no
other (R68). -/

namespace Sys2Proof.Laws.TableRow

/-- The rows of the opcode table that admit the instruction's word are its own row alone. -/
def Statement (i : Instr) : Prop :=
  ((opcodeTable.filter fun r => r.admits (encode i)).map OpcodeRow.mnemonic) = [mnemonic i]

theorem reset : Statement .reset := by unfold Statement; decide

theorem hold : Statement .hold := by unfold Statement; decide

theorem adv (w : SensorWord) : Statement (.adv w) := by unfold Statement; revert w; decide

end Sys2Proof.Laws.TableRow
end

