-- ==== Sys2Proof/Tests/Slice0.lean ====
section
/-! SUPPORT. The model's own tests. Expected results are from 95_test_vectors.md (its numbers stand in the comments) and
from the spec's encodings; the table is the synthetic Z of its section 2.5 unless a test says otherwise. The last part
gives, for each statement with hypotheses, a state and operands that meet them. -/

namespace Sys2Proof.Tests

open Sys2Proof.Machine

/-- Z under the default layouts. W0: it is well formed. -/
def zBlock : Block where
  table := tableZ
  layouts := {}
  wf := by decide

/-- Z in the state `i` with the edges `os` to come. -/
def zAt (i : StateId) (os : List Opw) : State := launchState zBlock i os

/-- S after one step, if it answers a next state. -/
def codeAfterStep (s : State) : Option StateCode :=
  match step s with
  | .next t => some t.code
  | .refused _ => none

/-! ## Well-formedness smoke: each check refuses an ill-formed term -/

theorem test_adv_line_of_8_is_ill_formed : (Line.adv 8).wellFormed = false := by decide
theorem test_cycle_line_of_8_is_ill_formed : (Line.cycle 1 8).wellFormed = false := by decide
theorem test_start_11_is_ill_formed : (Program.mk (some 11) []).wellFormed = false := by decide
theorem test_program_with_ill_formed_line : (Program.mk (some 0) [.adv 8]).wellFormed = false := by decide
theorem test_every_operand_is_well_formed : ∀ w, (Instr.adv w).wellFormed = true := by decide

/-! ## Decoding: words written out from R67 and R68 (section 2.1) -/

theorem test_decode_hold : decode 0b00000 = .hold ∧ decode 0b00111 = .hold := by decide
theorem test_decode_adv : decode 0b01000 = .adv 0 ∧ decode 0b01011 = .adv 3 ∧ decode 0b01100 = .adv 4 := by decide
theorem test_decode_reset : decode 0b10000 = .reset ∧ decode 0b11000 = .reset ∧ decode 0b10101 = .reset := by decide
theorem test_encode_adv : encode (.adv 0b101) = 0b01101 := by decide
theorem test_table_words : decodeTableWord 8 16 = some .reset ∧ decodeTableWord 8 0 = some .hold ∧
    decodeTableWord 8 8 = some (.adv 0) ∧ decodeTableWord 8 32 = none := by decide

/-! ## Edges (section 2.2) -/

/-- V1, V2, V3. -/
theorem test_reset : codeAfterStep (zAt 0 [0b10000]) = some 0 ∧ codeAfterStep (zAt 9 [0b11101]) = some 0 ∧
    codeAfterStep (zAt 10 [0b10111]) = some 0 := by decide
/-- R82: from an illegal code in the register. -/
theorem test_reset_from_illegal_code : registerEdge zBlock .reset 13 = .ok 0 := rfl
/-- V4, V5. -/
theorem test_hold : codeAfterStep (zAt 4 [0b00000]) = some 4 ∧ codeAfterStep (zAt 4 [0b00111]) = some 4 := by decide
/-- V6 to V10. -/
theorem test_adv_from_0 : [0b01000, 0b01001, 0b01010, 0b01100, 0b01111].map (fun o => codeAfterStep (zAt 0 [o])) =
    [some 0, some 0, some 1, some 1, some 1] := by decide
/-- E4, V11, V12, V13. -/
theorem test_adv_from_9_and_4 : allWords.map (fun w => codeAfterStep (zAt 9 [encode (.adv w)])) =
    [some 4, some 10, some 10, some 10, some 4, some 10, some 10, some 10] ∧
    codeAfterStep (zAt 4 [0b01001]) = some 5 := by decide
/-- R126: NEXT has no meaning on an illegal code in the register. -/
theorem test_adv_refused_on_illegal_code : registerEdge zBlock (.adv 0) 11 = .error (.illegalStateCode 11) := rfl

/-- Scenario 2 on the hardware's own open table: from reset, sensor word 0b010 leads to state 1. -/
theorem test_scenario_2_from_reset : codeAfterStep (State.reset.withFetchWord 8 0b01010) = some 1 := by
  have h : registerEdge hardwareBlock (.adv 2) (codeOf 0) = .ok (codeOf 1) :=
    (advanceCode_codeOf hardwareBlock 2 0).trans (congrArg Except.ok (hardwareBlock.wf6.1 0 2 _ rfl))
  have hs : step (State.reset.withFetchWord 8 0b01010) = .next (State.reset.setS 1) :=
    exec_of_registerEdge (i := .adv 2) (s := State.reset) h
  rw [codeAfterStep, hs]
  rfl

/-! ## Ports and lamps (section 2.4) -/

theorem test_dwell_of_7 : (dwellOut (zAt 7 [])).map BitVec.toNat = .ok 5 := rfl
theorem test_ports_of_0 : trafficOut (zAt 0 []) = .ok 0x09 ∧ walkOut (zAt 0 []) = .ok 0b10 := ⟨rfl, rfl⟩

theorem test_lamp_vectors : [0x0C, 0x21, 0x0A, 0x11, 0x09].map (trafficLamps {}) =
    [⟨false, false, true, true, false, false⟩, ⟨true, false, false, false, false, true⟩,
     ⟨false, true, false, true, false, false⟩, ⟨true, false, false, false, true, false⟩,
     ⟨true, false, false, true, false, false⟩] := by decide

/-! ## Table checks (section 2.5) -/

/-- Z with one TT entry changed. -/
def zTt (s : StateId) (w : Fin 8) (v : StateCode) : Table := { tableZ with tt := tableZ.tt.set s (tableZ.tt[s].set w v) }
/-- Z with one traffic pattern changed. -/
def zTraffic (s : StateId) (p : TrafficPattern) : Table := { tableZ with trafficRom := tableZ.trafficRom.set s p }
/-- Z with one walk pattern changed. -/
def zWalk (s : StateId) (p : WalkPattern) : Table := { tableZ with walkRom := tableZ.walkRom.set s p }
/-- Z with one dwell changed. -/
def zDwell (s : StateId) (d : BitVec 3) : Table := { tableZ with dwellRom := tableZ.dwellRom.set s d }

/-- W1, W2. -/
theorem test_wf1 : verdict {} (zTt 3 5 11) = some (.wf1 3 5 11) ∧ verdict {} (zTt 10 7 15) = some (.wf1 10 7 15) := by decide
/-- W3, W4, W5. -/
theorem test_wf2_wf3 : verdict {} (zTraffic 2 0x24) = some (.wf2 2 0x24) ∧
    verdict {} (zTraffic 2 0x0D) = some (.wf3 2 0x0D) ∧ verdict {} (zTraffic 6 0) = some (.wf3 6 0) := by decide
/-- W6, W7. -/
theorem test_wf4 : verdict {} (zWalk 7 0b00) = some (.wf4 7 0b00) ∧ verdict {} (zWalk 7 0b11) = some (.wf4 7 0b11) := by decide
/-- W8, W9. -/
theorem test_wf5_wf6 : verdict {} (zDwell 10 0) = some (.wf5 10 0) ∧ verdict {} (zDwell 6 4) = some (.wf6Dwell 6 4) := by decide
/-- W10, W11. -/
theorem test_wf6_tt : verdict {} (zTt 9 0 10) = some (.wf6Tt 9 0 10) ∧ verdict {} (zTt 4 1 4) = some (.wf6Tt 4 1 4) := by decide
/-- W12. -/
theorem test_lowest_check_wins :
    verdict {} { zTt 1 0 12 with trafficRom := tableZ.trafficRom.set 0 0x24 } = some (.wf1 1 0 12) := by decide
/-- W13. -/
theorem test_lowest_state_wins :
    verdict {} { tableZ with trafficRom := (tableZ.trafficRom.set 8 0x24).set 3 0x24 } = some (.wf2 3 0x24) := by decide

/-! ## Notation (R73) -/

theorem test_cycle_expands : lineEdges (.cycle 1 3) = [0b00000, 0b01011] := by decide
theorem test_parse_program : parseProgram
    [['S', 'T', 'A', 'R', 'T', ' ', '9', ' ', ';', ' ', 'x'],
     ['C', 'Y', 'C', 'L', 'E', ' ', '1', ',', ' ', '0', 'b', '0', '1', '1'], ['A', 'D', 'V', ' ', '7']] =
    some ⟨some 9, [.cycle 1 3, .adv 7]⟩ := by decide
theorem test_parse_refuses_late_start : parseProgram [['H', 'O', 'L', 'D'], ['S', 'T', 'A', 'R', 'T', ' ', '0']] = none := by
  decide
/-- L-RESET: a program without START that does not begin with a RESET edge is not launched. -/
theorem test_launch_needs_reset_edge : launch ⟨none, [.hold, .reset]⟩ zBlock = none := by decide

/-! ## Witnesses: the hypotheses of each statement can be met -/

theorem witness_DecodeFollowsOpcodeTable : (0b11101#5)[4] = true ∧ ((0b00110#5)[4] = false ∧ (0b00110#5)[3] = false) ∧
    (0b01110#5)[4] = false ∧ (0b01110#5)[3] = true := by decide
theorem witness_DecodeEncodeRoundTrip : (Instr.adv 7).wellFormed = true := by decide
theorem witness_AdvanceOperandBits : decode 0b01110 = .adv 6 := by decide
/-- The lowest and the highest illegal code, and no legal one. -/
theorem witness_StateCodeIsItsIdentifier : 10 < (11#4).toNat ∧ 10 < (15#4).toNat ∧ ¬ 10 < (10#4).toNat := by decide
theorem witness_StepRunsTheDrivenWord : (zAt 0 [0b01010]).inputs = 0b01010 :: [] := by decide
theorem witness_StepRunsAFreeWordWhenNoneIsDriven : State.reset.inputs = [] := rfl
theorem witness_FetchWordRunsAtTheNextStep : Instr.reset.wellFormed = true := by decide
theorem witness_ResetLoadsTheStartState : (0b11101#5)[4] = true ∧ (zAt 10 [0b11101]).inputs = 0b11101 :: [] := by decide
theorem witness_StepIsTheEdgeFunction : (zAt 10 [0b01111]).inputs = 0b01111 :: [] := by decide
theorem witness_ResetWinsOverAdvance : (zAt 9 [0b11101]).inputs = (0b11#2 ++ 0b101#3) :: [] := by decide
theorem witness_IllegalCodesAreRefusedButForReset : 10 < (11#4).toNat ∧ 10 < (15#4).toNat := by decide
theorem witness_SelfTransitionLeavesTheState : (zAt 0 []).block.table.entry (zAt 0 []).S 1 = (zAt 0 []).code := by decide
/-- Two different blocks with the same TT. -/
theorem witness_NextIsTotalAndReadsTtAlone : ∃ b : Block, b ≠ zBlock ∧ b.table.tt = zBlock.table.tt :=
  ⟨⟨zDwell 0 2, {}, by decide⟩, by decide, rfl⟩
/-- A table for each constructor of Verdict. -/
theorem witness_VerdictNamesTheLowestFailure :
    verdict {} (zTt 3 5 11) = some (.wf1 3 5 11) ∧ verdict {} (zTraffic 2 0x24) = some (.wf2 2 0x24) ∧
    verdict {} (zTraffic 2 0x0D) = some (.wf3 2 0x0D) ∧ verdict {} (zWalk 7 0b11) = some (.wf4 7 0b11) ∧
    verdict {} (zDwell 10 0) = some (.wf5 10 0) ∧ verdict {} (zTt 9 0 10) = some (.wf6Tt 9 0 10) ∧
    verdict {} (zDwell 6 4) = some (.wf6Dwell 6 4) :=
  ⟨test_wf1.1, test_wf2_wf3.1, test_wf2_wf3.2.1, test_wf4.2, test_wf5_wf6.1, test_wf6_tt.1, test_wf5_wf6.2⟩
theorem witness_FailingTablesGiveNoBlock : verdict {} (zTt 3 5 11) = some (.wf1 3 5 11) ∧ verdict {} tableZ = none :=
  ⟨test_wf1.1, zBlock.wf⟩
theorem witness_InstructionsChangeSAlone : exec (.adv 2) (zAt 0 []) = .next (zAt 1 []) ∧
    exec .hold (zAt 4 []) = .next (zAt 4 []) ∧ exec .reset (zAt 4 []) = .next (zAt 0 []) := ⟨rfl, rfl, rfl⟩
theorem witness_TheTableIsNeverWritten : run 1 (zAt 0 [0b01010]) = .next (zAt 1 []) := rfl
theorem witness_StepKeepsTheCodeLegal : (zAt 9 [0b01001]).Legal ∧ step (zAt 9 [0b01001]) = .next (zAt 10 []) :=
  ⟨by decide, rfl⟩
theorem witness_AfterFirstResetTheCodeStaysLegal : isReset 0b11101 = true := by decide
theorem witness_ReachableStatesAreLegal : Reachable State.reset := .launched hardwareBlock 0 []
theorem witness_ReachableAfterFirstReset : Reachable (zAt 0 []) := .afterFirstReset zBlock 15 0b10000 [] _ rfl
theorem witness_ReachableByAnEdge : Reachable (zAt 1 []) := .stepped (zAt 0 [0b01010]) _ (.launched zBlock 0 _) rfl
theorem witness_OutputsDependOnSAlone : (zAt 5 [0b00111]).block = (zAt 5 []).block ∧ (zAt 5 [0b00111]).S = (zAt 5 []).S :=
  ⟨rfl, rfl⟩
theorem witness_NamedLampsAreTheLayoutBits : (zAt 5 []).block.layouts = ⟨{}, {}⟩ := by decide
theorem witness_NeverBothGreen : Reachable (zAt 10 []) := .launched zBlock 10 []
theorem witness_ExactlyOneLampIsLit : Reachable (zAt 4 []) := .launched zBlock 4 []
/-- The ends of the blink states, and a state beside each. -/
theorem witness_DwellIsPositiveAndFiveWhenBlinking : 5 ≤ (zAt 5 []).code ∧ (zAt 9 []).code ≤ 9 ∧
    ¬ 5 ≤ (zAt 4 []).code ∧ ¬ (zAt 10 []).code ≤ 9 := by decide
theorem witness_HoldEdgesKeepTheState :
    (∀ o ∈ [0b00111#5, 0b00000#5], o[4] = false ∧ o[3] = false) ∧
    (zAt 4 [0b00111, 0b00000, 0b01001]).inputs = [0b00111, 0b00000] ++ [0b01001] := by decide
theorem witness_HeldResetShowsStateZero : [0b11101#5, 0b10000#5] ≠ [] ∧ (∀ o ∈ [0b11101#5, 0b10000#5], o[4] = true) ∧
    (zAt 10 [0b11101, 0b10000, 0b00000]).inputs = [0b11101, 0b10000] ++ [0b00000] := by decide
/-- P2 without its reset edge. -/
theorem witness_CycleViewIsTheRunWithoutHolds :
    ∀ o ∈ (zAt 0 [0b00010, 0b00100, 0b01010]).inputs, isReset o = false := by decide
/-- A HOLD, an ADVANCE, a RESET with adv = 1 and one with adv = 0; the sensor words differ but at the ADVANCE. -/
theorem witness_UnsampledSensorWordsHaveNoEffect :
    List.Forall₂ (fun o o' : Opw => o[4] = o'[4] ∧ o[3] = o'[3] ∧
      (o[4] = false → o[3] = true → o.extractLsb' 0 3 = o'.extractLsb' 0 3))
      [0b00000, 0b01010, 0b11000, 0b10000] [0b00111, 0b01010, 0b11101, 0b10011] := by decide
/-- P6. -/
theorem witness_HeldAdvanceMakesOneTransitionPerEdge :
    (zAt 9 [0b01000, 0b01001]).inputs = [0#3, 1#3].map (fun w => encode (.adv w)) := by decide
theorem witness_CycleLineWaitsThenAdvances : (Line.cycle 1 7).wellFormed = true := by decide
/-- The highest START, and programs without one that do and do not begin with a RESET edge. -/
theorem witness_LaunchKeepsThePremises : (Program.mk (some 10) [.adv 0]).wellFormed = true ∧
    (Program.mk none [.reset, .hold]).wellFormed = true ∧
    programEdges ⟨none, [.reset, .hold]⟩ = 0b10000 :: [0b00000] ∧ isReset 0b10000 = true ∧
    programEdges ⟨none, [.hold]⟩ = 0b00000 :: [] ∧ isReset 0b00000 = false := by decide

/-- P3 with time units of 2 instants: state 9 lasts 5 units, state 4 one, and HOLD edges stand inside both dwells, so the
quiet time after each ADVANCE edge has edges in it. -/
def keptRun : List TimedEdge := [⟨1, 0b00000⟩, ⟨10, 0b01100⟩, ⟨11, 0b00000⟩, ⟨12, 0b01001⟩, ⟨13, 0b00000⟩]

theorem witness_DwellFidelityGivesOneTransitionPerDwell : timesRise 0 keptRun ∧ dwellFaithful zBlock 2 9 0 keptRun :=
  ⟨⟨by decide, by decide, by decide, by decide, by decide, trivial⟩,
    ⟨nofun, 9, rfl, fun _ => ⟨10, rfl, by decide⟩, 4, rfl, nofun, 4, rfl, fun _ => ⟨2, rfl, by decide⟩, 5, rfl,
      nofun, 5, rfl, trivial⟩⟩
theorem witness_StateChangesOnlyAfterItsDwell : dwellFaithful zBlock 2 9 0 keptRun ∧ ∀ e ∈ keptRun, isReset e.opw = false :=
  ⟨witness_DwellFidelityGivesOneTransitionPerDwell.2, by decide⟩
theorem witness_AnyDelayAboveTheDwellIsAdmitted : 0 < 1 * Config.timeUnit + 1 ∧
    (zBlock.table.dwell 0).toNat * Config.timeUnit ≤ 1 * Config.timeUnit + 1 := ⟨Nat.succ_pos _, Nat.le_succ _⟩
theorem witness_ProgressGivesEndlessAdvances : progress (fun _ => 0b01000) ∧ loadsS 0b01000 = true :=
  have h : Opw.rst 0b01000 = false ∧ Opw.adv 0b01000 = true := by decide
  ⟨fun n _ => ⟨n + 1, Nat.lt_succ_self n, h.1, h.2⟩, by decide⟩

/-- P6 with an instant between its edges that is short of state 4's dwell: the duty is broken. -/
theorem test_short_dwell_breaks_duty_1 : ¬ dwellFaithful zBlock 2 9 0 [⟨10, 0b01000⟩, ⟨11, 0b01001⟩] := by
  intro h
  obtain ⟨_, v, hv, h, _⟩ := h
  cases hv
  obtain ⟨d, hd, hle⟩ := h rfl
  cases hd
  exact absurd hle (by decide)

end Sys2Proof.Tests
end

section
/-! PROOFS. The width of the dwell port: what the literals of WF6 leave for DWELL_W. -/

namespace Sys2Proof.Machine

/-- WF6 for a block's blink states 5..9 (R27). -/
theorem Block.dwell_blink (b : Block) {s : StateId} (h : 5 ≤ s ∧ s ≤ 9) :
    (b.table.dwell s).toNat = Config.blinkDwell :=
  b.wf6.2 s Config.blinkDwell (if_pos h)

/-- R8: a dwell port that carries the 5 of a blink state has at least 3 bits, because 2 ^ 2 ≤ 5. -/
theorem Block.three_le_dwellW (b : Block) : 3 ≤ b.table.dwellW := by
  have blink : (b.table.dwell 5).toNat = 5 := b.dwell_blink (by decide)
  have fits : (b.table.dwell 5).toNat < 2 ^ b.table.dwellW := (b.table.dwell 5).isLt
  have four_lt : 2 ^ 2 < 2 ^ b.table.dwellW := by omega
  exact (Nat.pow_lt_pow_iff_right Nat.one_lt_two).mp four_lt

/-- Settles O22: the width by the fixed dwell of the blink states, the bound by the type of the ROM's entries. -/
theorem dwellPortIsWideEnough : Obligations.DwellPortIsWideEnough :=
  fun b => ⟨b.three_le_dwellW, fun i => (b.table.dwell i).isLt⟩

end Sys2Proof.Machine
end

section
/-! PROOFS. The state of the block: the literals of its table, the state after reset, what an edge does and that no edge
writes the table, and that a run reads a driven word by its operation alone. -/

namespace Sys2Proof.Machine

/-! ## The table and the state after reset -/

/-- R24: row 0 of TT. -/
theorem Block.entry_row0 (b : Block) (w : SensorWord) : b.table.entry 0 w = fixedRow0[w.toNat] :=
  b.wf6.1 0 w _ rfl

/-- R24: row 9 of TT. -/
theorem Block.entry_row9 (b : Block) (w : SensorWord) : b.table.entry 9 w = fixedRow9[w.toNat] :=
  b.wf6.1 9 w _ rfl

/-- R24 and 90_conflicts.md C1. -/
theorem Block.entry_4_1 (b : Block) : b.table.entry 4 1 = 5 := b.wf6.1 4 1 5 rfl

/-- Settles O17: by WF6 a fixed row is the source's vector at every sensor word, and that vector is read out in the order
of the words. -/
theorem fixedEntriesStandInEveryBlock : Obligations.FixedEntriesStandInEveryBlock := by
  intro b
  refine ⟨?_, ?_, b.entry_4_1⟩
  · rw [funext b.entry_row0]; decide
  · rw [funext b.entry_row9]; decide

/-- R61: S holds a state identifier, so its code is legal in every state. -/
theorem State.legal (s : State) : s.Legal := Nat.le_of_lt_succ (codeOf_toNat_lt s.S)

/-- Settles O26: S is the start state, and the block is the open table under the default layouts, with its own proof that
it passed the checks. -/
theorem resetStateIsLegal : Obligations.ResetStateIsLegal :=
  ⟨rfl, State.reset.legal, rfl, State.reset.block.wf⟩

/-! ## What an edge does -/

/-- Everything a step does: the inputs are taken, S becomes the state whose code the register operation answers, and
nothing else changes. -/
theorem step_eq (s : State) :
    ∃ j, registerEdge s.block (decode (takeInputs s).1) s.code = .ok (codeOf j) ∧
      step s = .next ((takeInputs s).2.setS j) := by
  simpa [step] using exec_eq (decode (takeInputs s).1) (takeInputs s).2

/-- R30 for one edge: the block is constant. -/
theorem step_block {s t : State} (h : step s = .next t) : t.block = s.block := by
  obtain ⟨j, -, hs⟩ := step_eq s
  cases hs.symm.trans h
  simp

/-- What every step keeps, every run keeps. -/
theorem run_keeps {P : State → Prop} (keep : ∀ s t, step s = .next t → P s → P t) {n : Nat} {s t : State}
    (h : run n s = .next t) (hs : P s) : P t := by
  induction n generalizing s with
  | zero => cases h; exact hs
  | succ n ih =>
    obtain ⟨j, -, hstep⟩ := step_eq s
    rw [run_succ n hstep] at h
    exact ih h (keep _ _ hstep hs)

/-- R30: the block is constant along every run. -/
theorem run_block {n : Nat} {s t : State} (h : run n s = .next t) : t.block = s.block :=
  run_keeps (P := fun u => u.block = s.block) (fun _ _ hstep hu => (step_block hstep).trans hu) h rfl

/-- Settles O24: the table is a part of the block, which no run changes. -/
theorem theTableIsNeverWritten : Obligations.TheTableIsNeverWritten :=
  fun _ _ _ h => congrArg Block.table (run_block h)

/-! ## A run reads a driven word by its operation alone -/

/-- An instruction leads to the same state identifier whatever is to be driven after it, and leaves that in place. -/
theorem exec_inputs (i : Instr) (s : State) :
    ∃ j, ∀ os, exec i { s with inputs := os } = .next { s with S := j, inputs := os } := by
  obtain ⟨j, hj, -⟩ := exec_eq i s
  exact ⟨j, fun os => exec_of_registerEdge (s := { s with inputs := os }) hj⟩

/-- Two lists of driven words that decode alike, edge by edge, have the same outcome. -/
theorem run_congr_decode {os os' : List Opw} (h : List.Forall₂ (fun o o' => decode o = decode o') os os')
    (s : State) : run os.length { s with inputs := os } = run os'.length { s with inputs := os' } := by
  induction h generalizing s with
  | nil => rfl
  | @cons o o' os os' hd _ ih =>
    obtain ⟨j, hj⟩ := exec_inputs (decode o) s
    have hs : step { s with inputs := o :: os } = .next { s with S := j, inputs := os } := hj os
    have hs' : step { s with inputs := o' :: os' } = .next { s with S := j, inputs := os' } := by
      rw [← hj os', hd]; rfl
    rw [List.length_cons, List.length_cons, run_succ _ hs, run_succ _ hs']
    exact ih { s with S := j }

/-! R68, a row each: the bits r and a of a word choose its operation. -/

theorem decode_of_rst {o : Opw} (r : o[4] = true) : decode o = .reset := by
  simp [decode, Opw.rst, r]

theorem decode_of_hold {o : Opw} (r : o[4] = false) (a : o[3] = false) : decode o = .hold := by
  simp [decode, Opw.rst, Opw.adv, r, a]

theorem decode_of_adv {o : Opw} (r : o[4] = false) (a : o[3] = true) : decode o = .adv (o.extractLsb' 0 3) := by
  simp [decode, Opw.rst, Opw.adv, Opw.sensor, r, a]

/-- R29, R68: the sensor bits of a word matter to its operation only when r = 0 and a = 1. -/
theorem decode_congr {o o' : Opw} (hr : o[4] = o'[4]) (ha : o[3] = o'[3])
    (hw : o[4] = false → o[3] = true → o.extractLsb' 0 3 = o'.extractLsb' 0 3) : decode o = decode o' := by
  cases r : o[4] with
  | true => rw [decode_of_rst r, decode_of_rst (hr ▸ r)]
  | false =>
    cases a : o[3] with
    | false => rw [decode_of_hold r a, decode_of_hold (hr ▸ r) (ha ▸ a)]
    | true => rw [decode_of_adv r a, decode_of_adv (hr ▸ r) (ha ▸ a), hw r a]

/-- Settles O40: words that differ only in sensor bits that no edge samples decode to the same operations. -/
theorem unsampledSensorWordsHaveNoEffect : Obligations.UnsampledSensorWordsHaveNoEffect :=
  fun s _ _ h => run_congr_decode (h.imp fun _ _ ⟨hr, ha, hw⟩ => decode_congr hr ha hw) s

end Sys2Proof.Machine
end

section
/-! PROOFS. The read-only memory: what an instruction changes, and that no ROM read sees it. -/

namespace Sys2Proof.Machine

/-- The state an instruction leads to is the old one with S loaded, by the state whose code the register operation
answers. -/
theorem exec_inv {i : Instr} {s t : State} (h : exec i s = .next t) :
    ∃ j, registerEdge s.block i s.code = .ok (codeOf j) ∧ t = s.setS j := by
  obtain ⟨j, hj, hexec⟩ := exec_eq i s
  rw [hexec] at h
  cases h
  exact ⟨j, hj, rfl⟩

/-- R83: HOLD leaves the whole state. -/
@[simp] theorem exec_hold (s : State) : exec .hold s = .next s :=
  exec_of_registerEdge (holdCode_codeOf s.S)

/-- Settles O23: an instruction loads S alone, HOLD with the S of before; the ROM reads take the block, which that load
leaves. -/
theorem instructionsChangeSAlone : Obligations.InstructionsChangeSAlone := by
  intro i s t h
  have hold_S : i = .hold → t.S = s.S := by
    rintro rfl
    rw [exec_hold] at h
    cases h
    rfl
  obtain ⟨j, -, rfl⟩ := exec_inv h
  exact ⟨rfl, hold_S, fun _ => rfl, fun _ => rfl, fun _ => rfl, fun _ => rfl⟩

end Sys2Proof.Machine
end

section
/-! PROOFS. The encoding: the operation word and its row of the opcode table, the code of a state and that every edge
keeps it legal, and the edges of a `CYCLE` line. -/

namespace Sys2Proof.Machine

/-! ## The code of a state -/

/-- R60: the code of a state identifier is its number. -/
@[simp] theorem codeOf_toNat (s : StateId) : (codeOf s).toNat = s.val := by
  have fits : s.val < 2 ^ 4 := by omega
  exact (BitVec.toNat_ofNat s.val 4).trans (Nat.mod_eq_of_lt fits)

/-- R61, R89 on the 4-bit register: a legal code names a state, and from a state's code every operation answers a state's
code. -/
theorem registerEdge_legal (b : Block) (i : Instr) {c : StateCode} (hc : c.toNat ≤ 10) :
    ∃ v, registerEdge b i c = .ok v ∧ v.toNat ≤ 10 := by
  obtain ⟨s, rfl⟩ := legal_iff_codeOf.mp (BitVec.le_def.mpr hc)
  obtain ⟨j, hj⟩ := registerEdge_codeOf b i s
  exact ⟨codeOf j, hj, codeOf_le j⟩

/-- Settles O25: on the register by WF1; on the machine a step stores the state whose code the register operation
answers. -/
theorem stepKeepsTheCodeLegal : Obligations.StepKeepsTheCodeLegal := by
  refine ⟨fun b i c hc => registerEdge_legal b i hc, fun s _ => ?_⟩
  obtain ⟨j, hj, hstep⟩ := step_eq s
  exact ⟨_, hstep, hj, State.legal _⟩

/-- Settles O6: codes and identifiers agree both ways, the register's code is that of its identifier, and a code above 10
is refused. -/
theorem stateCodeIsItsIdentifier : Obligations.StateCodeIsItsIdentifier :=
  ⟨fun s => ⟨codeOf_toNat s, stateOf_codeOf s⟩, fun s => ⟨stateOf_codeOf s.S, codeOf_toNat s.S⟩,
    fun _ hc => stateOf_illegal (Nat.not_le.mpr hc)⟩

/-! ## The operation word -/

/-- The decoder reads back what the encoder writes. -/
@[simp] theorem decode_encode (i : Instr) : decode (encode i) = i := by
  cases i with
  | reset => rfl
  | hold => rfl
  | adv w => revert w; decide

/-- R68, R71: each sensor word has one ADVANCE word, because ADVANCE ignores no bit. -/
theorem decode_eq_adv_iff {o : Opw} {w : SensorWord} : decode o = .adv w ↔ o = encode (.adv w) := by
  refine ⟨fun h => ?_, fun h => h ▸ decode_encode (.adv w)⟩
  cases r : o[4] with
  | true => cases (decode_of_rst r).symm.trans h
  | false =>
    cases a : o[3] with
    | false => cases (decode_of_hold r a).symm.trans h
    | true =>
      cases (decode_of_adv r a).symm.trans h
      clear h
      revert o; decide

/-- R69: the decoder rejects no word, laid out in any number of bits from 5 on. -/
theorem decodeTableWord_toNat {nbits : Nat} (h : 5 ≤ nbits) (o : Opw) :
    decodeTableWord nbits o.toNat = some (decode o) := by
  have fits : o.toNat < 2 ^ nbits := o.isLt.trans_le (Nat.pow_le_pow_right Nat.two_pos h)
  have word : decodeWord o.toNat = .ok (decode o) := by simp [decodeWord, o.isLt]
  simp [decodeTableWord, Nat.mod_eq_of_lt fits, word]

/-- R68: the rows that admit the word of an instruction are its own row alone. -/
theorem rows_encode (i : Instr) :
    (opcodeTable.filter fun r => r.admits (encode i)).map OpcodeRow.mnemonic = [mnemonic i] := by
  cases i with
  | reset => exact Laws.TableRow.reset
  | hold => exact Laws.TableRow.hold
  | adv w => exact Laws.TableRow.adv w

/-- The fields that an operation ignores do not matter to any row: writing them as zeros leaves the rows that admit the
word. -/
theorem admits_encode_decode (o : Opw) : ∀ r ∈ opcodeTable, r.admits o = r.admits (encode (decode o)) := by
  revert o; decide

/-- Settles O2: the rows of a word are those of its operation written with zeros in the ignored fields. -/
theorem decodeFollowsOpcodeTable : Obligations.DecodeFollowsOpcodeTable := by
  intro o
  refine ⟨?_, decode_of_rst, decode_of_hold, decode_of_adv⟩
  rw [List.filter_congr (admits_encode_decode o), rows_encode]

/-- Settles O3: the three counts are read off the list of the 32 words; each bit pattern decodes by its row of R68, and a
sensor word's ADVANCE words are the occurrences of its encoding in that list. -/
theorem decodeIsTotalWithFixedCounts : Obligations.DecodeIsTotalWithFixedCounts := by
  refine ⟨by decide, fun _ => decode_of_rst, by decide, fun _ => decode_of_hold, by decide, fun w => ?_,
    decodeTableWord_toNat le_rfl⟩
  have isEncoding : (fun o => decode o == .adv w) = (· == encode (.adv w)) :=
    funext fun _ => Bool.eq_iff_iff.mpr (by simp only [beq_iff_eq, decode_eq_adv_iff])
  have occursOnce : ((List.range 32).map (BitVec.ofNat 5)).count (encode (.adv w)) = 1 := by revert w; decide
  rw [isEncoding, List.filter_beq, occursOnce]
  rfl

/-- R71: the sensor bits stand in their order at the low end of an ADVANCE word. -/
theorem encode_adv_sensor_bits (w : SensorWord) :
    eastWestCar w = (encode (.adv w))[0] ∧ northSouthCar w = (encode (.adv w))[1] ∧
      pedestrianRequest w = (encode (.adv w))[2] := by revert w; decide

/-- Settles O5: a word that decodes to `ADV w` is the encoding of it. -/
theorem advanceOperandBits : Obligations.AdvanceOperandBits := by
  intro o w h
  rw [decode_eq_adv_iff.mp h]
  exact encode_adv_sensor_bits w

/-! ## Edges with driven words -/

/-- A step takes the word driven at the edge and runs its operation. -/
theorem step_of_inputs_cons {s : State} {o : Opw} {os : List Opw} (h : s.inputs = o :: os) :
    step s = exec (decode o) { s with inputs := os } := by
  simp only [step, takeInputs_cons h]

/-- R84: ADVANCE loads the state that the entry of S and the sensor word names. -/
theorem exec_adv {s : State} {w : SensorWord} {j : StateId} (h : s.block.table.entry s.S w = codeOf j) :
    exec (.adv w) s = .next (s.setS j) :=
  exec_of_registerEdge ((advanceCode_codeOf s.block w s.S).trans (congrArg Except.ok h))

/-- R83: HOLD edges only take their words from the inputs. -/
theorem run_hold_edges {os : List Opw} (h : ∀ o ∈ os, decode o = .hold) (s : State) (rest : List Opw) :
    run os.length { s with inputs := os ++ rest } = .next { s with inputs := rest } := by
  induction os with
  | nil => rfl
  | cons o os ih =>
    obtain ⟨ho, hos⟩ := List.forall_mem_cons.mp h
    have edge : step { s with inputs := o :: os ++ rest } = .next { s with inputs := os ++ rest } := by
      rw [step_of_inputs_cons rfl, ho, exec_hold]
      rfl
    rw [List.length_cons, run_succ _ edge]
    exact ih hos

/-- R73: `WAIT k` before any further edges takes k edges and leaves S. -/
theorem run_wait (b : Block) (i : StateId) (k : Nat) (rest : List Opw) :
    run k (launchState b i (lineEdges (.wait k) ++ rest)) = .next (launchState b i rest) := by
  have holds : ∀ o ∈ lineEdges (.wait k), decode o = .hold := fun o ho =>
    List.eq_of_mem_replicate ho ▸ decode_encode .hold
  have len : (lineEdges (.wait k)).length = k := List.length_replicate
  have wait := run_hold_edges holds (launchState b i rest) rest
  rw [len] at wait
  exact wait

/-- R73: the one edge of an `ADV w` line takes the transition for w. -/
theorem step_adv_line {b : Block} {i j : StateId} {w : Nat} (h : b.table.entry i (BitVec.ofNat 3 w) = codeOf j) :
    step (launchState b i (lineEdges (.adv w))) = .next (launchState b j []) := by
  rw [step_of_inputs_cons rfl, decode_encode]
  exact exec_adv h

/-- Settles O42: `CYCLE k, w` is `WAIT k` followed by `ADV w`. -/
theorem cycleLineWaitsThenAdvances : Obligations.CycleLineWaitsThenAdvances := by
  intro b i k w _
  obtain ⟨j, hj⟩ := b.entry_eq_codeOf i (BitVec.ofNat 3 w)
  have wait : run k (launchState b i (lineEdges (.cycle k w))) = .next (launchState b i (lineEdges (.adv w))) :=
    run_wait b i k (lineEdges (.adv w))
  refine ⟨by simp [lineEdges], wait, j, hj.symm, ?_⟩
  rw [run_add 1 wait, run_succ 0 (step_adv_line hj), run_zero]

end Sys2Proof.Machine
end

section
/-! PROOFS. The state register: what each operation does to it, one edge as the edge function, a run as a fold over its
driven words, and the cycle view. -/

namespace Sys2Proof.Machine

/-! ## The operations -/

/-- R82: RESET loads the start state and leaves everything else. -/
@[simp] theorem exec_reset (s : State) : exec .reset s = .next (s.setS Config.startState) :=
  exec_of_registerEdge (resetCode_eq s.code)

/-- R82 at the edge: a driven RESET word is taken and S is the start state. -/
theorem step_reset {s : State} {o : Opw} {os : List Opw} (ho : decode o = .reset) (h : s.inputs = o :: os) :
    step s = .next { s with S := Config.startState, inputs := os } := by
  rw [step_of_inputs_cons h, ho, exec_reset]
  rfl

/-- R131.1: a RESET edge loads S. -/
theorem loadsS_of_reset {o : Opw} (ho : decode o = .reset) : loadsS o = true := by
  simp [loadsS, isReset, ho]

/-- Settles O10: a word with r = 1 decodes to RESET, which answers the start state's code from every code. -/
theorem resetLoadsTheStartState : Obligations.ResetLoadsTheStartState := by
  refine ⟨exec_reset, fun s o os r h => ?_, fun b c o r => ?_⟩
  · exact ⟨step_reset (decode_of_rst r) h, loadsS_of_reset (decode_of_rst r)⟩
  · rw [decode_of_rst r]
    exact resetCode_eq c

/-- Settles O11: HOLD stores the code it found. -/
theorem holdLeavesTheWholeState : Obligations.HoldLeavesTheWholeState := exec_hold

/-- Settles O12: by WF1 the entry is the code of a state, which ADVANCE loads. -/
theorem advanceLoadsTheTableEntry : Obligations.AdvanceLoadsTheTableEntry := by
  intro s w
  obtain ⟨i, hi⟩ := s.block.entry_eq_codeOf s.S w
  exact ⟨i, hi.symm, exec_adv hi⟩

/-! ## NEXT -/

/-- R86 (Pure): of the ROMs NEXT reads TT alone. -/
theorem next_congr_tt {b b' : Block} (h : b.table.tt = b'.table.tt) (c : StateCode) (w : SensorWord) :
    next b c w = next b' c w := by
  simp only [next_eq, Table.entry, h]

/-- Settles O18: NEXT of a state's code is its entry, legal by WF1, and an entry is read from TT. -/
theorem nextIsTotalAndReadsTtAlone : Obligations.NextIsTotalAndReadsTtAlone :=
  ⟨fun b i w => ⟨next_codeOf b i w, b.wf1 i w⟩, fun _ _ c w h => next_congr_tt h c w⟩

/-- Settles O29: every state holds a legal code, however it was reached, and ADVANCE keeps a code legal. -/
theorem reachableStatesAreLegal : Obligations.ReachableStatesAreLegal :=
  fun s _ => ⟨s.legal, fun w => registerEdge_legal s.block (.adv w) s.legal⟩

/-! ## One edge -/

/-- R81 on the code of a state, a clause for each of RESET, ADVANCE and HOLD. -/
theorem edge_codeOf (b : Block) (rst adv : Bool) (w : SensorWord) (s : StateId) :
    edge b rst adv w (codeOf s) =
      .ok (if rst = true then 0 else if adv = true then b.table.entry s w else codeOf s) := by
  cases rst with
  | true => rfl
  | false =>
    cases adv with
    | true => exact next_codeOf b s w
    | false => rfl

/-- On the code of a state the operation a word decodes to is the edge function of the word's fields (R68, R81). -/
theorem registerEdge_decode_eq_edge (b : Block) (o : Opw) (s : StateId) :
    registerEdge b (decode o) (codeOf s) = edge b (Opw.rst o) (Opw.adv o) (Opw.sensor o) (codeOf s) := by
  rw [edge_codeOf]
  cases r : Opw.rst o with
  | true => rw [decode_of_rst r]; rfl
  | false =>
    cases a : Opw.adv o with
    | false => rw [decode_of_hold r a]; exact holdCode_codeOf s
    | true => rw [decode_of_adv r a]; exact advanceCode_codeOf b (Opw.sensor o) s

/-- With a driven word a step takes that word, and S becomes the state whose code the register operation answers. -/
theorem step_driven {s : State} {o : Opw} {os : List Opw} (h : s.inputs = o :: os) :
    ∃ i, registerEdge s.block (decode o) s.code = .ok (codeOf i) ∧
      step s = .next { s with S := i, inputs := os } := by
  rw [step_of_inputs_cons h]
  exact exec_eq (decode o) { s with inputs := os }

/-- Settles O13: a step stores what the register operation answers, which is the edge function of the word's fields. -/
theorem stepIsTheEdgeFunction : Obligations.StepIsTheEdgeFunction := by
  intro s o os h
  obtain ⟨i, hi, hstep⟩ := step_driven h
  have code_eq := hi.symm.trans ((registerEdge_decode_eq_edge s.block o s.S).trans (edge_codeOf _ _ _ _ s.S))
  exact ⟨i, Except.ok.inj code_eq, hstep⟩

/-! ## Runs over driven words -/

/-- Settles O36: words with r = 0 and a = 0 decode to HOLD, and HOLD edges only take their words. -/
theorem holdEdgesKeepTheState : Obligations.HoldEdgesKeepTheState := by
  intro s os rest low h
  have holds : ∀ o ∈ os, decode o = .hold := fun o ho => decode_of_hold (low o ho).1 (low o ho).2
  have keep := run_hold_edges holds s rest
  rw [← h] at keep
  exact keep

/-- A run over all its driven words is a fold, by any function on codes that agrees with the register operations on the
words driven and the codes of states; all else is unchanged. -/
theorem run_driven {f : StateCode → Opw → Except Refusal StateCode} (s : State)
    (hf : ∀ o ∈ s.inputs, ∀ i, f (codeOf i) o = registerEdge s.block (decode o) (codeOf i)) :
    ∃ i, s.inputs.foldlM f s.code = .ok (codeOf i) ∧
      run s.inputs.length s = .next { s with S := i, inputs := [] } := by
  induction h : s.inputs generalizing s with
  | nil => exact ⟨s.S, rfl, by rw [List.length_nil, run_zero, ← h]⟩
  | cons o os ih =>
    rw [h] at hf
    obtain ⟨ho, hos⟩ := List.forall_mem_cons.mp hf
    obtain ⟨j, hj, hstep⟩ := step_driven h
    obtain ⟨i, hfold, hrun⟩ := ih { s with S := j, inputs := os } hos rfl
    have first : f s.code o = .ok (codeOf j) := (ho s.S).trans hj
    refine ⟨i, ?_, ?_⟩
    · rw [List.foldlM_cons, first]
      exact hfold
    · rw [List.length_cons, run_succ _ hstep]
      exact hrun

/-- Settles O38: on the code of a state the edge function agrees with the register operations. -/
theorem runIsTheEdgeFunctionIterated : Obligations.RunIsTheEdgeFunctionIterated :=
  fun s => run_driven s fun o _ i => (registerEdge_decode_eq_edge s.block o i).symm

/-- L-RESET (R141): a first RESET edge launches the block at the start state, from any power-up code. -/
theorem launchAtReset_of_reset {b : Block} {c : StateCode} {o : Opw} {os : List Opw} (ho : decode o = .reset) :
    launchAtReset b c o os = some (launchState b Config.startState os) := by
  simp only [launchAtReset, ho]
  rfl

/-- Settles O27: the RESET edge answers the start state's code from any code; from there the register operations and the
machine launched at that edge go on together. -/
theorem afterFirstResetTheCodeStaysLegal : Obligations.AfterFirstResetTheCodeStaysLegal := by
  intro b c o os hr
  have ho : decode o = .reset := eq_of_beq hr
  obtain ⟨i, hfold, hrun⟩ := run_driven (f := fun x e => registerEdge b (decode e) x)
    (launchState b Config.startState os) fun _ _ _ => rfl
  refine ⟨codeOf i, ?_, codeOf_le i, _, _, launchAtReset_of_reset ho, hrun, rfl⟩
  rw [List.foldlM_cons, ho]
  exact hfold

/-! ## The cycle view -/

/-- R28, R87: the ports show the cycle view's output for the code in S. -/
theorem observe_eq_cycleOutput (s : State) : observe s = cycleOutput s.block s.code := by
  simp [observe, cycleOutput, trafficOut, walkOut, stateOut, State.code, Except.map]

/-- R29: a HOLD edge samples no sensor word. -/
theorem sampledWord_of_hold {o : Opw} (ho : decode o = .hold) : sampledWord o = none := by
  simp only [sampledWord, ho]

/-- R29: an ADVANCE edge samples its operand. -/
theorem sampledWord_of_adv {o : Opw} {w : SensorWord} (ho : decode o = .adv w) : sampledWord o = some w := by
  simp only [sampledWord, ho]

/-- R83, R87: a HOLD edge adds nothing to what is seen after the ADVANCE edges. -/
theorem advanceTrace_hold {s : State} {o : Opw} {os : List Opw} (n : Nat) (h : s.inputs = o :: os)
    (ho : decode o = .hold) : advanceTrace (n + 1) s = advanceTrace n { s with inputs := os } := by
  have hstep : step s = .next { s with inputs := os } := by rw [step_of_inputs_cons h, ho, exec_hold]
  simp [advanceTrace, hstep, takeInputs_cons h, sampledWord_of_hold ho]

/-- R84, R87: an ADVANCE edge adds what the ports show in the state that the entry names. -/
theorem advanceTrace_adv {s : State} {o : Opw} {os : List Opw} {w : SensorWord} {j : StateId} (n : Nat)
    (h : s.inputs = o :: os) (ho : decode o = .adv w) (hj : s.block.table.entry s.S w = codeOf j) :
    advanceTrace (n + 1) s = cycleOutput s.block (codeOf j) :: advanceTrace n { s with S := j, inputs := os } := by
  have hstep : step s = .next { s with S := j, inputs := os } := by
    rw [step_of_inputs_cons h, ho]
    exact exec_adv hj
  simp [advanceTrace, hstep, takeInputs_cons h, sampledWord_of_adv ho, observe_eq_cycleOutput, State.code]

/-- R87: a cycle from a state's code goes to the code of the state that the entry names. -/
theorem cycleTrace_cons {b : Block} {i j : StateId} {w : SensorWord} (ws : List SensorWord)
    (hj : b.table.entry i w = codeOf j) :
    cycleTrace b (codeOf i) (w :: ws) = cycleOutput b (codeOf j) :: cycleTrace b (codeOf j) ws := by
  simp [cycleTrace, cycle, hj]

/-- R87: with no RESET among the driven words, what is seen after the ADVANCE edges is the cycle view of the sampled
words. -/
theorem advanceTrace_eq_cycleTrace (s : State) (hs : ∀ o ∈ s.inputs, isReset o = false) :
    advanceTrace s.inputs.length s = cycleTrace s.block s.code (s.inputs.filterMap sampledWord) := by
  induction h : s.inputs generalizing s with
  | nil => rfl
  | cons o os ih =>
    rw [h] at hs
    obtain ⟨hno, hos⟩ := List.forall_mem_cons.mp hs
    cases ho : decode o with
    | reset => exact absurd ho (ne_of_beq_false hno)
    | hold =>
      rw [List.length_cons, advanceTrace_hold _ h ho, List.filterMap_cons_none (sampledWord_of_hold ho)]
      exact ih _ hos rfl
    | adv w =>
      obtain ⟨j, hj⟩ := s.block.entry_eq_codeOf s.S w
      rw [List.length_cons, advanceTrace_adv _ h ho hj, List.filterMap_cons_some (sampledWord_of_adv ho), State.code,
        cycleTrace_cons _ hj]
      exact congrArg _ (ih { s with S := j, inputs := os } hos rfl)

/-- R87: with no RESET among the driven words, the run ends in the state that the cycles of the sampled words lead to. -/
theorem run_eq_cycleRun (s : State) (hs : ∀ o ∈ s.inputs, isReset o = false) :
    ∃ i, cycleRun s.block s.code (s.inputs.filterMap sampledWord) = .ok (codeOf i) ∧
      run s.inputs.length s = .next { s with S := i, inputs := [] } := by
  rw [cycleRun, List.foldlM_filterMap]
  refine run_driven s fun o hmem i => ?_
  cases ho : decode o with
  | reset => exact absurd ho (ne_of_beq_false (hs o hmem))
  | hold => rw [sampledWord_of_hold ho]; exact (holdCode_codeOf i).symm
  | adv w => rw [sampledWord_of_adv ho]; rfl

/-- Settles O39: a HOLD edge keeps S, samples nothing and shows nothing, and an ADVANCE edge is one cycle; so the trace
and the last S are those of the sampled words. -/
theorem cycleViewIsTheRunWithoutHolds : Obligations.CycleViewIsTheRunWithoutHolds :=
  fun s hs => ⟨advanceTrace_eq_cycleTrace s hs, run_eq_cycleRun s hs⟩

end Sys2Proof.Machine
end

section
/-! PROOFS. The output decoder: each port is a read of the record of S, and the checks of the table speak of what the ports
show. -/

namespace Sys2Proof.Machine

/-! ## The ports of a state -/

/-- R101: the traffic port is the traffic ROM's entry of S. -/
@[simp] theorem trafficOut_eq (s : State) : trafficOut s = .ok (s.block.table.traffic s.S) :=
  memReadTraffic_codeOf s.block s.S

/-- R102: the walk port is the walk ROM's entry of S. -/
@[simp] theorem walkOut_eq (s : State) : walkOut s = .ok (s.block.table.walk s.S) :=
  memReadWalk_codeOf s.block s.S

/-- R107: the dwell port is the dwell ROM's entry of S. -/
@[simp] theorem dwellOut_eq (s : State) : dwellOut s = .ok (s.block.table.dwell s.S) :=
  memReadDwell_codeOf s.block s.S

/-- R108: the state port is the code of S. -/
@[simp] theorem stateOut_eq (s : State) : stateOut s = codeOf s.S := rfl

/-- R103: the traffic lamps are those of the traffic ROM's entry of S, under the layout in force. -/
@[simp] theorem trafficLampsOut_eq (s : State) :
    trafficLampsOut s = .ok (trafficLamps s.block.layouts.traffic (s.block.table.traffic s.S)) :=
  congrArg (Except.map _) (trafficOut_eq s)

/-- R103: the pedestrian lamps are those of the walk ROM's entry of S, under the layout in force. -/
@[simp] theorem walkLampsOut_eq (s : State) :
    walkLampsOut s = .ok (walkLamps s.block.layouts.walk (s.block.table.walk s.S)) :=
  congrArg (Except.map _) (walkOut_eq s)

/-- Settles O30: a ROM read at the code of S is the entry of S, and that code is the number of S. -/
theorem portsShowTheRecordOfS : Obligations.PortsShowTheRecordOfS :=
  fun s => ⟨trafficOut_eq s, walkOut_eq s, dwellOut_eq s, codeOf_toNat s.S⟩

/-- Settles O31: what a port shows names only the block and S, so equal blocks and equal S show the same. -/
theorem outputsDependOnSAlone : Obligations.OutputsDependOnSAlone := by
  intro s t hblock hS
  simp only [trafficOut_eq, walkOut_eq, trafficLampsOut_eq, walkLampsOut_eq, stateOut_eq, dwellOut_eq]
  rw [hblock, hS]
  exact ⟨rfl, rfl, rfl, rfl, rfl, rfl⟩

/-- R103: under given layouts the named lamps are read by those layouts. -/
theorem lampsOut_of_layouts {s : State} {l : TrafficLayout} {m : WalkLayout} (h : s.block.layouts = ⟨l, m⟩) :
    trafficLampsOut s = .ok (trafficLamps l (s.block.table.traffic s.S)) ∧
      walkLampsOut s = .ok (walkLamps m (s.block.table.walk s.S)) := by
  rw [trafficLampsOut_eq, walkLampsOut_eq, h]
  exact ⟨rfl, rfl⟩

/-- Settles O32: the default layouts are one case of given layouts. -/
theorem namedLampsAreTheLayoutBits : Obligations.NamedLampsAreTheLayoutBits :=
  ⟨fun _ h => lampsOut_of_layouts h, fun _ _ _ h => lampsOut_of_layouts h, by decide⟩

/-! ## What the checks of the table give at the ports -/

/-- The mutual exclusion that WF2 checks, as R104 says it. -/
theorem bothGreen_eq_false {t : TrafficLamps} : bothGreen t = false ↔ ¬ (t.nsGreen = true ∧ t.ewGreen = true) := by
  rw [bothGreen, ← Bool.and_eq_true, Bool.not_eq_true]

/-- Settles O33: by WF2, which the block's table passed for every S. -/
theorem neverBothGreen : Obligations.NeverBothGreen :=
  fun s _ => ⟨_, trafficLampsOut_eq s, bothGreen_eq_false.mp (s.block.wf2 s.S)⟩

/-- Settles O34: by WF3 for each direction and WF4 for the pedestrian lamps, which the block's table passed for every S. -/
theorem exactlyOneLampIsLit : Obligations.ExactlyOneLampIsLit := by
  intro s _
  obtain ⟨ns, ew⟩ := s.block.wf3 s.S
  exact ⟨_, _, trafficLampsOut_eq s, walkLampsOut_eq s, ns, ew, s.block.wf4 s.S⟩

/-- R60: codes are ordered as their states. -/
theorem codeOf_le_codeOf {i j : StateId} : codeOf i ≤ codeOf j ↔ i ≤ j := by
  rw [BitVec.le_def, codeOf_toNat, codeOf_toNat, Fin.le_def]

/-- Settles O35: positive by WF5, and 5 by WF6 where the code of S is that of a blink state. -/
theorem dwellIsPositiveAndFiveWhenBlinking : Obligations.DwellIsPositiveAndFiveWhenBlinking := by
  intro s
  refine ⟨_, dwellOut_eq s, s.block.wf5 s.S, fun from5 to9 => ?_⟩
  have blink : 5 ≤ s.S ∧ s.S ≤ 9 := ⟨codeOf_le_codeOf.mp from5, codeOf_le_codeOf.mp to9⟩
  exact s.block.dwell_blink blink

end Sys2Proof.Machine
end

section
/-! PROOFS. The checks of the table: the six of R124 are those the verdict is made of, the verdict names the lowest
failure of them (R125), and a table that fails one gives no block (R122). -/

namespace Sys2Proof.Machine

/-! ## What the six checks say (R124) -/

/-- A row of TT, read in the order of the sensor words, is the source's row when each of its entries is. -/
theorem map_allWords_eq_toList {f : SensorWord → StateCode} {row : Vector StateCode 8} :
    allWords.map f = row.toList ↔ ∀ w, f w = row[w.toNat] := by
  have inOrder : row.toList = allWords.map fun w => row[w.toNat] := by
    obtain ⟨⟨row⟩, len⟩ := row
    match row, len with
    | [_, _, _, _, _, _, _, _], _ => rfl
  rw [inOrder, List.map_inj_left]
  simp only [mem_allWords, forall_const]

/-- R24: what WF6 asks of TT is rows 0 and 9 and the entry (4, 1) of the source. -/
theorem fixedEntries_iff {t : Table} :
    (∀ (s : StateId) (w : SensorWord), ∀ v ∈ fixedEntry s w, t.entry s w = v) ↔
      allWords.map (t.entry 0) = fixedRow0.toList ∧ allWords.map (t.entry 9) = fixedRow9.toList ∧
        t.entry 4 1 = 5 := by
  rw [map_allWords_eq_toList, map_allWords_eq_toList]
  constructor
  · intro h
    exact ⟨fun w => h 0 w _ rfl, fun w => h 9 w _ rfl, h 4 1 5 rfl⟩
  · rintro ⟨row0, row9, entry41⟩ s w v hv
    unfold fixedEntry at hv
    split_ifs at hv with s0 s9 s4
    · cases hv; exact s0 ▸ row0 w
    · cases hv; exact s9 ▸ row9 w
    · cases hv; obtain ⟨rfl, rfl⟩ := s4; exact entry41
    · cases hv

/-- R27: what WF6 asks of the dwell times is 5 units in the blink states. -/
theorem fixedDwells_iff {t : Table} :
    (∀ s : StateId, ∀ d ∈ fixedDwell s, (t.dwell s).toNat = d) ↔
      ∀ s : StateId, 5 ≤ s.val → s.val ≤ 9 → (t.dwell s).toNat = 5 := by
  constructor
  · intro h s from5 to9
    exact h s Config.blinkDwell (if_pos ⟨from5, to9⟩)
  · intro h s d hd
    unfold fixedDwell at hd
    split_ifs at hd with blink
    · cases hd; exact h s blink.1 blink.2
    · cases hd

/-- R64: under the default layout the lamps of a direction are three neighbouring bits of the traffic pattern. -/
theorem lit_default (p : TrafficPattern) :
    nsLit (trafficLamps {} p) = popcount (p.extractLsb' 0 3) ∧
      ewLit (trafficLamps {} p) = popcount (p.extractLsb' 3 3) := by revert p; decide

/-- Settles O19: each search answers none exactly when its check holds, and the literals of WF6 are the source's rows;
the patterns under the default layouts are few. -/
theorem wellFormedIffTheSixChecks : Obligations.WellFormedIffTheSixChecks := by
  refine ⟨fun l t => ?_, fun p => ⟨Iff.rfl, lit_default p⟩, by decide⟩
  have exclusion : WF2 l t ↔ ∀ s : StateId, ¬ ((trafficLamps l.traffic (t.traffic s)).nsGreen = true ∧
      (trafficLamps l.traffic (t.traffic s)).ewGreen = true) := forall_congr' fun _ => bothGreen_eq_false
  have literals : WF6 t ↔ _ := and_congr fixedEntries_iff fixedDwells_iff
  rw [verdict_eq_none, failure1_eq_none, failure2_eq_none, failure3_eq_none, failure4_eq_none, failure5_eq_none,
    failure6_eq_none, exclusion, literals, and_assoc, and_assoc]
  rfl

/-! ## The lowest failure (R125) -/

/-- A search along a list in rising order that has every value answers at the lowest value that has an answer. -/
theorem findSome?_lowest {α β : Type} {lt : α → α → Prop} [Std.Asymm lt] {l : List α} (rising : l.Pairwise lt)
    (all : ∀ a, a ∈ l) {f : α → Option β} {v : β} (h : l.findSome? f = some v) :
    ∃ a, f a = some v ∧ ∀ x, lt x a → f x = none := by
  obtain ⟨before, a, after, rfl, ha, none_before⟩ := List.findSome?_eq_some_iff.mp h
  refine ⟨a, ha, fun x hx => ?_⟩
  have above : ∀ y ∈ after, lt a y := (List.pairwise_cons.mp (List.pairwise_append.mp rising).2.1).1
  rcases List.mem_append.mp (all x) with hmem | hmem
  · exact none_before x hmem
  · rcases List.mem_cons.mp hmem with rfl | hmem
    · exact absurd hx (Std.Asymm.asymm _ _ hx)
    · exact absurd hx (Std.Asymm.asymm _ _ (above x hmem))

/-- A search over the states answers at the lowest state that has an answer. -/
theorem findSome?_allStates {f : StateId → Option Verdict} {v : Verdict} (h : allStates.findSome? f = some v) :
    ∃ s, f s = some v ∧ ∀ s' < s, f s' = none :=
  findSome?_lowest (lt := (· < ·)) (by decide) mem_allStates h

/-- A search over the sensor words for a value that is not `ok` answers at the lowest such word. -/
theorem findSome?_allWords {ok : SensorWord → Bool} {mk : SensorWord → Verdict} {v : Verdict}
    (h : (allWords.findSome? fun w => failUnless (ok w) (mk w)) = some v) :
    ∃ w, mk w = v ∧ ok w = false ∧ ∀ w' < w, ok w' = true := by
  have : Std.Asymm (α := SensorWord) (· < ·) := ⟨fun _ _ => BitVec.lt_asymm⟩
  obtain ⟨w, hw, lower⟩ := findSome?_lowest (lt := (· < ·)) (by decide) mem_allWords h
  obtain ⟨bad, rfl⟩ := failUnless_eq_some.mp hw
  exact ⟨w, rfl, bad, fun w' hlt => failUnless_eq_none.mp (lower w' hlt)⟩

/-- A search over the states for a record that is not `ok` answers at the lowest such state. -/
theorem findSome?_failUnless {ok : StateId → Bool} {mk : StateId → Verdict} {v : Verdict}
    (h : (allStates.findSome? fun s => failUnless (ok s) (mk s)) = some v) :
    ∃ s, mk s = v ∧ ok s = false ∧ ∀ s' < s, ok s' = true := by
  obtain ⟨s, hs, lower⟩ := findSome?_allStates h
  obtain ⟨bad, rfl⟩ := failUnless_eq_some.mp hs
  exact ⟨s, rfl, bad, fun s' hlt => failUnless_eq_none.mp (lower s' hlt)⟩

/-- A search over the sensor words finds nothing exactly when every word is `ok`. -/
theorem findSome?_allWords_eq_none {ok : SensorWord → Bool} {mk : SensorWord → Verdict} :
    (allWords.findSome? fun w => failUnless (ok w) (mk w)) = none ↔ ∀ w, ok w = true := by
  simp only [List.findSome?_eq_none_iff, failUnless_eq_none, mem_allWords, forall_const]

theorem meetsFixed_eq_false {α : Type} [DecidableEq α] {fixed : Option α} {x : α} :
    meetsFixed fixed x = false ↔ ∃ v ∈ fixed, x ≠ v := by
  cases fixed <;> simp [meetsFixed]

/-- The verdict is the failure of the first of the six searches that finds one; the checks before it hold. -/
theorem verdict_eq_some {l : Layouts} {t : Table} {v : Verdict} :
    verdict l t = some v ↔ failure1 t = some v ∨ WF1 t ∧ (failure2 l t = some v ∨ WF2 l t ∧
      (failure3 l t = some v ∨ WF3 l t ∧ (failure4 l t = some v ∨ WF4 l t ∧
        (failure5 t = some v ∨ WF5 t ∧ failure6 t = some v)))) := by
  simp only [verdict, Option.or_eq_some_iff, failure1_eq_none, failure2_eq_none, failure3_eq_none, failure4_eq_none,
    failure5_eq_none]

/-- A failure of WF1 is at the lowest state, and there at the lowest sensor word, with an illegal entry. -/
theorem failure1_eq_some {t : Table} {v : Verdict} (h : failure1 t = some v) :
    ∃ s w, v = .wf1 s w (t.entry s w) ∧ ¬ t.entry s w ≤ 10 ∧ (∀ s' < s, ∀ w', t.entry s' w' ≤ 10) ∧
      ∀ w' < w, t.entry s w' ≤ 10 := by
  obtain ⟨s, hs, lowerStates⟩ := findSome?_allStates h
  obtain ⟨w, rfl, bad, lowerWords⟩ := findSome?_allWords hs
  exact ⟨s, w, rfl, of_decide_eq_false bad,
    fun s' hlt w' => of_decide_eq_true (findSome?_allWords_eq_none.mp (lowerStates s' hlt) w'),
    fun w' hlt => of_decide_eq_true (lowerWords w' hlt)⟩

/-- The entries and the dwell that the source fixes for the state `s` stand: WF6 for one state. -/
def StandsAt (t : Table) (s : StateId) : Prop :=
  (∀ w, ∀ x ∈ fixedEntry s w, t.entry s w = x) ∧ ∀ d ∈ fixedDwell s, (t.dwell s).toNat = d

/-- A failure of WF6 is at the lowest state at which a literal does not stand: there the lowest such entry of TT, or
else the dwell (log entry 11). -/
theorem failure6_eq_some {t : Table} {v : Verdict} (h : failure6 t = some v) :
    ∃ s, (∀ s' < s, StandsAt t s') ∧
      ((∃ w, v = .wf6Tt s w (t.entry s w) ∧ (∃ x ∈ fixedEntry s w, t.entry s w ≠ x) ∧
          ∀ w' < w, ∀ x ∈ fixedEntry s w', t.entry s w' = x) ∨
        v = .wf6Dwell s (t.dwell s).toNat ∧ ∃ d ∈ fixedDwell s, (t.dwell s).toNat ≠ d) := by
  obtain ⟨s, hs, lowerStates⟩ := findSome?_allStates h
  refine ⟨s, fun s' hlt => ?_, ?_⟩
  · obtain ⟨entries, dwell⟩ := Option.or_eq_none_iff.mp (lowerStates s' hlt)
    exact ⟨fun w => meetsFixed_iff.mp (findSome?_allWords_eq_none.mp entries w),
      meetsFixed_iff.mp (failUnless_eq_none.mp dwell)⟩
  · rcases Option.or_eq_some_iff.mp hs with inTT | ⟨-, inDwell⟩
    · obtain ⟨w, rfl, bad, lowerWords⟩ := findSome?_allWords inTT
      exact .inl ⟨w, rfl, meetsFixed_eq_false.mp bad, fun w' hlt => meetsFixed_iff.mp (lowerWords w' hlt)⟩
    · obtain ⟨bad, rfl⟩ := failUnless_eq_some.mp inDwell
      exact .inr ⟨rfl, meetsFixed_eq_false.mp bad⟩

/-- Settles O20: the verdict is the lowest failure of the first check that has one. -/
theorem verdictNamesTheLowestFailure : Obligations.VerdictNamesTheLowestFailure := by
  intro l t v h
  rcases verdict_eq_some.mp h with
    h1 | ⟨wf1, h2 | ⟨wf2, h3 | ⟨wf3, h4 | ⟨wf4, h5 | ⟨wf5, h6⟩⟩⟩⟩⟩
  · obtain ⟨s, w, rfl, lowest⟩ := failure1_eq_some h1
    exact ⟨rfl, lowest⟩
  · obtain ⟨s, rfl, bad, lower⟩ := findSome?_failUnless h2
    exact ⟨wf1, rfl, by simpa using bad, by simpa using lower⟩
  · obtain ⟨s, rfl, bad, lower⟩ := findSome?_failUnless h3
    exact ⟨wf1, wf2, rfl, of_decide_eq_false bad, fun s' hlt => of_decide_eq_true (lower s' hlt)⟩
  · obtain ⟨s, rfl, bad, lower⟩ := findSome?_failUnless h4
    exact ⟨wf1, wf2, wf3, rfl, of_decide_eq_false bad, fun s' hlt => of_decide_eq_true (lower s' hlt)⟩
  · obtain ⟨s, rfl, bad, lower⟩ := findSome?_failUnless h5
    have zero : (t.dwell s).toNat = 0 := Nat.lt_one_iff.mp (Nat.not_le.mp (of_decide_eq_false bad))
    exact ⟨wf1, wf2, wf3, wf4, rfl, zero, fun s' hlt => of_decide_eq_true (lower s' hlt)⟩
  · obtain ⟨s, lower, ⟨w, rfl, bad, lowerWords⟩ | ⟨rfl, bad⟩⟩ := failure6_eq_some h6
    · exact ⟨wf1, wf2, wf3, wf4, wf5, rfl, bad, lowerWords, lower⟩
    · exact ⟨wf1, wf2, wf3, wf4, wf5, rfl, bad, lower⟩

/-! ## Building the block (R122) -/

/-- A table with a verdict is refused with it. -/
theorem buildBlock_of_verdict {l : Layouts} {t : Table} {v : Verdict} (h : verdict l t = some v) :
    buildBlock l t = .error (.tableRefused v) := by
  unfold buildBlock
  split
  next passed => cases passed.symm.trans h
  next _ failed => cases failed.symm.trans h; rfl

/-- A table without a verdict is built, as it is. -/
theorem buildBlock_of_no_verdict {l : Layouts} {t : Table} (h : verdict l t = none) :
    buildBlock l t = .ok ⟨t, l, h⟩ := by
  unfold buildBlock
  split
  next passed => rfl
  next _ failed => cases failed.symm.trans h

/-- Settles O21: a block carries the proof that its table has no verdict. -/
theorem failingTablesGiveNoBlock : Obligations.FailingTablesGiveNoBlock := by
  refine ⟨fun l t v h => ⟨buildBlock_of_verdict h, ?_⟩, fun l t h => ⟨_, buildBlock_of_no_verdict h, rfl, rfl⟩⟩
  rintro b ⟨rfl, rfl⟩
  cases b.wf.symm.trans h

end Sys2Proof.Machine
end

section
/-! PROOFS. No edge stops the block: RESET over ADVANCE at one edge (R128), the illegal codes of the register (R126), and
that every number of edges is carried out (R120). -/

namespace Sys2Proof.Machine

/-- Settles O28: every edge answers a next state, from which the rest of the edges are carried out. -/
theorem theBlockNeverStops : Obligations.TheBlockNeverStops := by
  intro s n
  induction n generalizing s with
  | zero => exact ⟨s, run_zero s⟩
  | succ n ih =>
    obtain ⟨j, -, hstep⟩ := step_eq s
    rw [run_succ n hstep]
    exact ih _

/-- R29: a RESET edge samples no sensor word. -/
theorem sampledWord_of_reset {o : Opw} (ho : decode o = .reset) : sampledWord o = none := by
  simp only [sampledWord, ho]

/-- Settles O14: a word with r = 1 decodes to RESET, whatever its bit a. -/
theorem resetWinsOverAdvance : Obligations.ResetWinsOverAdvance := by
  intro s w os h
  have ho : decode (0b11#2 ++ w) = .reset := decode_of_rst (by clear h; revert w; decide)
  exact ⟨sampledWord_of_reset ho, step_reset ho h⟩

/-- Settles O15: a code above 10 names no state, so every read of its row is refused; RESET reads none. -/
theorem illegalCodesAreRefusedButForReset : Obligations.IllegalCodesAreRefusedButForReset := by
  intro b c w above
  have illegal : ¬ c ≤ 10 := Nat.not_le.mpr above
  have refused : stateOf c = .error (.illegalStateCode c) := stateOf_illegal illegal
  refine ⟨next_illegal illegal, ?_, ?_, ?_, advanceCode_illegal illegal, holdCode_illegal illegal, resetCode_eq c⟩
  · rw [memReadTraffic, refused]; rfl
  · rw [memReadWalk, refused]; rfl
  · rw [memReadDwell, refused]; rfl

end Sys2Proof.Machine
end

section
/-! PROOFS. The duties of the Timing Service on timed edges (R131), in the model's reading (log entry 16): dwell fidelity
keeps adv at 0 through every dwell, any longer delay keeps the duties, and progress makes the ADVANCE edges endless. -/

namespace Sys2Proof.Machine

/-! ## The edges by their operation -/

/-- R68: the inputs at a HOLD edge. -/
theorem rst_adv_of_hold {o : Opw} (ho : decode o = .hold) : Opw.rst o = false ∧ Opw.adv o = false := by
  revert o; decide

/-- R68: the inputs at an ADVANCE edge. -/
theorem fields_of_adv {o : Opw} {w : SensorWord} (ho : decode o = .adv w) :
    Opw.rst o = false ∧ Opw.adv o = true ∧ Opw.sensor o = w := by
  obtain rfl := decode_eq_adv_iff.mp ho
  clear ho
  revert w; decide

/-- R81: a HOLD edge keeps the code, any of the 16. -/
theorem codeAfter_of_hold {b : Block} {c : StateCode} {o : Opw} (ho : decode o = .hold) : codeAfter b c o = .ok c := by
  obtain ⟨rst, adv⟩ := rst_adv_of_hold ho
  simp [codeAfter, edge, rst, adv]

/-- R81: an ADVANCE edge answers NEXT. -/
theorem codeAfter_of_adv {b : Block} {c : StateCode} {o : Opw} {w : SensorWord} (ho : decode o = .adv w) :
    codeAfter b c o = next b c w := by
  obtain ⟨rst, adv, rfl⟩ := fields_of_adv ho
  simp [codeAfter, edge, rst, adv]

/-- R131.1: an ADVANCE edge loads S. -/
theorem loadsS_of_adv {o : Opw} {w : SensorWord} (ho : decode o = .adv w) : loadsS o = true := by
  simp [loadsS, sampledWord_of_adv ho]

/-- R131.1: every edge but a HOLD edge loads S. -/
theorem decode_of_not_loadsS {o : Opw} (h : loadsS o = false) : decode o = .hold := by
  cases ho : decode o with
  | reset => cases (loadsS_of_reset ho).symm.trans h
  | hold => rfl
  | adv w => cases (loadsS_of_adv ho).symm.trans h

/-- R29: only an ADVANCE edge samples a sensor word. -/
theorem decode_of_sampledWord_isSome {o : Opw} (h : (sampledWord o).isSome = true) : ∃ w, decode o = .adv w := by
  cases ho : decode o with
  | reset => rw [sampledWord_of_reset ho] at h; cases h
  | hold => rw [sampledWord_of_hold ho] at h; cases h
  | adv w => exact ⟨w, rfl⟩

/-! ## The dwell of a code -/

@[simp] theorem dwellSpan_codeOf (b : Block) (unit : Nat) (i : StateId) :
    dwellSpan b unit (codeOf i) = .ok ((b.table.dwell i).toNat * unit) := by
  simp [dwellSpan, Except.map]

/-- What NEXT answers has a dwell, because it is the code of a state. -/
theorem dwellSpan_of_next {b : Block} {c v : StateCode} {w : SensorWord} (unit : Nat) (h : next b c w = .ok v) :
    ∃ d, dwellSpan b unit v = .ok d := by
  obtain ⟨i, rfl⟩ := legal_iff_codeOf.mp (next_ok h).2
  exact ⟨_, dwellSpan_codeOf b unit i⟩

/-! ## Duties 1 and 2 -/

/-- Duty 1 keeps adv at 0 from the edge that loaded S until the dwell of S has passed: the edges in between hold S, so
that dwell is the one each of them is measured by. -/
theorem quietUntil_of_dwellFaithful {b : Block} {unit since d : Nat} {c : StateCode} {es : List TimedEdge}
    (hd : dwellSpan b unit c = .ok d) (h : dwellFaithful b unit c since es) : quietUntil (since + d) es := by
  induction es with
  | nil => trivial
  | cons e es ih =>
    obtain ⟨duty, v, hv, rest⟩ := h
    refine ⟨fun early => ?_, fun keeps => ih ?_⟩
    · refine Bool.eq_false_iff.mpr fun adv => ?_
      obtain ⟨d', hd', late⟩ := duty adv
      cases hd.symm.trans hd'
      omega
    · cases (codeAfter_of_hold (decode_of_not_loadsS keeps)).symm.trans hv
      simpa [keeps] using rest

/-- Settles O44: an ADVANCE edge loads S, so duty 1 from there on keeps adv at 0 for the dwell of the state it loads. -/
theorem dwellFidelityGivesOneTransitionPerDwell : Obligations.DwellFidelityGivesOneTransitionPerDwell := by
  rintro b unit since c es - h
  induction es generalizing c since with
  | nil => trivial
  | cons e es ih =>
    obtain ⟨-, v, hv, rest⟩ := h
    refine ⟨v, hv, fun sampled => ?_, ih _ _ rest⟩
    obtain ⟨w, ho⟩ := decode_of_sampledWord_isSome sampled
    rw [codeAfter_of_adv ho] at hv
    rw [if_pos (loadsS_of_adv ho)] at rest
    obtain ⟨d, hd⟩ := dwellSpan_of_next unit hv
    exact ⟨d, hd, quietUntil_of_dwellFaithful hd rest⟩

/-- Settles O45: with no RESET only an ADVANCE edge changes S, and duty 1 is what such an edge must meet. -/
theorem stateChangesOnlyAfterItsDwell : Obligations.StateChangesOnlyAfterItsDwell := by
  intro b unit since c es h hes
  induction es generalizing c since with
  | nil => trivial
  | cons e es ih =>
    obtain ⟨noReset, hes⟩ := List.forall_mem_cons.mp hes
    obtain ⟨duty, v, hv, rest⟩ := h
    refine ⟨v, hv, fun changed => ?_, ih _ _ rest hes⟩
    cases ho : decode e.opw with
    | reset => exact absurd ho (ne_of_beq_false noReset)
    | hold => cases (codeAfter_of_hold ho).symm.trans hv; exact absurd rfl changed
    | adv w => exact duty (fields_of_adv ho).2.1

/-- Settles O46: the one ADVANCE edge comes after the dwell, and no edge comes after it. -/
theorem anyDelayAboveTheDwellIsAdmitted : Obligations.AnyDelayAboveTheDwellIsAdmitted := by
  intro b i since delay w pos long
  have answer : codeAfter b (codeOf i) (encode (.adv w)) = .ok (b.table.entry i w) :=
    (codeAfter_of_adv (decode_encode (.adv w))).trans (next_codeOf b i w)
  obtain ⟨d, hd⟩ := dwellSpan_of_next Config.timeUnit (next_codeOf b i w)
  exact ⟨⟨Nat.lt_add_of_pos_right pos, trivial⟩,
    ⟨fun _ => ⟨_, dwellSpan_codeOf b _ i, Nat.add_le_add_left long since⟩, _, answer, trivial⟩,
    _, answer, fun _ => ⟨d, hd, trivial⟩, trivial⟩

/-! ## Duty 3 -/

/-- Under progress an edge that loads S is followed by an ADVANCE edge. -/
theorem advance_after_load {edges : Nat → Opw} (h : progress edges) {n : Nat} (hn : loadsS (edges n) = true) :
    ∃ m w, n < m ∧ decode (edges m) = .adv w := by
  obtain ⟨m, later, rst, adv⟩ := h n hn
  exact ⟨m, _, later, decode_of_adv rst adv⟩

/-- Settles O47: an ADVANCE edge loads S itself, so another one follows it. -/
theorem progressGivesEndlessAdvances : Obligations.ProgressGivesEndlessAdvances := by
  intro edges h loads0 n
  have advances : ∃ m w, n ≤ m ∧ decode (edges m) = .adv w := by
    induction n with
    | zero =>
      obtain ⟨m, w, -, hm⟩ := advance_after_load h loads0
      exact ⟨m, w, m.zero_le, hm⟩
    | succ n ih =>
      obtain ⟨k, u, hk, advk⟩ := ih
      obtain ⟨m, w, later, hm⟩ := advance_after_load h (loadsS_of_adv advk)
      exact ⟨m, w, hk.trans_lt later, hm⟩
  obtain ⟨m, w, hm, adv⟩ := advances
  exact ⟨m, hm, by rw [sampledWord_of_adv adv]; rfl⟩

end Sys2Proof.Machine
end

section
/-! PROOFS. Reset and hazards: how a program is launched (R141), rst held (R150), adv held (R145) and the
self-transition (R147). -/

namespace Sys2Proof.Machine

/-! ## Inputs held over many edges -/

/-- R82, R150: RESET edges, one or more, take their words and leave S at the start state. -/
theorem run_reset_edges {s : State} {o : Opw} {os rest : List Opw} (h : ∀ x ∈ o :: os, decode x = .reset)
    (hs : s.inputs = o :: (os ++ rest)) :
    run (o :: os).length s = .next { s with S := Config.startState, inputs := rest } := by
  induction os generalizing s o with
  | nil => exact run_succ 0 (step_reset (h o List.mem_cons_self) hs)
  | cons o' os ih =>
    obtain ⟨ho, hos⟩ := List.forall_mem_cons.mp h
    rw [List.length_cons, run_succ _ (step_reset ho hs)]
    exact ih hos rfl

/-- Settles O37: words with r = 1 decode to RESET, and the ports show the record of S. -/
theorem heldResetShowsStateZero : Obligations.HeldResetShowsStateZero := by
  intro s os rest nonempty r hs
  obtain ⟨o, os, rfl⟩ := List.exists_cons_of_ne_nil nonempty
  have resets : ∀ x ∈ o :: os, decode x = .reset := fun x hx => decode_of_rst (r x hx)
  exact ⟨_, run_reset_edges resets hs, rfl, rfl, rfl, trafficOut_eq _, walkOut_eq _, dwellOut_eq _⟩

/-- R84: the register operation of a driven ADVANCE word is NEXT with its sensor word. -/
theorem registerEdge_encode_adv (b : Block) (w : SensorWord) (c : StateCode) :
    registerEdge b (decode (encode (.adv w))) c = next b c w := by
  rw [decode_encode]
  rfl

/-- Settles O41: the run is the fold of the register operations over the driven words, each of them NEXT. -/
theorem heldAdvanceMakesOneTransitionPerEdge : Obligations.HeldAdvanceMakesOneTransitionPerEdge := by
  intro s ws hs
  obtain ⟨i, hfold, hrun⟩ := run_driven (f := fun c o => registerEdge s.block (decode o) c) s fun _ _ _ => rfl
  rw [hs, List.length_map] at hrun
  simp only [hs, List.foldlM_map, registerEdge_encode_adv] at hfold
  exact ⟨i, hfold, hrun⟩

/-- Settles O16: ADVANCE loads the state that the entry names, here the S of before, which leaves the state as it was. -/
theorem selfTransitionLeavesTheState : Obligations.SelfTransitionLeavesTheState :=
  fun _ w same => ⟨exec_adv same, loadsS_of_adv (decode_encode (.adv w))⟩

/-! ## Launching a program -/

/-- R73: the `START` of a well-formed program names a state. -/
theorem start_le_of_wellFormed {p : Program} {n : Nat} (wf : p.wellFormed = true) (start : p.start = some n) :
    n ≤ 10 := by
  simp only [Program.wellFormed, start, Bool.and_eq_true] at wf
  exact of_decide_eq_true wf.1

/-- L-STATE(s) (R141): `START s` launches the block in the state s, with all the edges to come. -/
theorem launch_of_start {p : Program} {i : StateId} (b : Block) (wf : p.wellFormed = true)
    (start : p.start = some i.val) : launch p b = some (launchState b i (programEdges p)) := by
  have named : stateOf (BitVec.ofNat 4 i.val) = .ok i := stateOf_codeOf i
  simp [launch, wf, start, named]

/-- R73, R141: without `START` the first edge decides, from the power-up code. -/
theorem launch_of_no_start {p : Program} {o : Opw} {os : List Opw} (b : Block) (wf : p.wellFormed = true)
    (start : p.start = none) (edges : programEdges p = o :: os) :
    launch p b = launchAtReset b Config.powerUpCode o os := by
  simp [launch, wf, start, edges]

/-- L-RESET (R141): a first edge that is no RESET launches nothing. -/
theorem launchAtReset_of_not_reset {b : Block} {c : StateCode} {o : Opw} {os : List Opw} (ho : decode o ≠ .reset) :
    launchAtReset b c o os = none := if_neg ho

/-- L-RESET (R141): a block is launched at a first edge exactly when that is a RESET, and then at the start state. -/
theorem launchAtReset_eq (b : Block) (c : StateCode) (o : Opw) (os : List Opw) :
    launchAtReset b c o os = if isReset o then some (launchState b Config.startState os) else none := by
  cases h : isReset o with
  | true => exact launchAtReset_of_reset (eq_of_beq h)
  | false => exact launchAtReset_of_not_reset (ne_of_beq_false h)

/-- Settles O43: each premise by the lemma for it; a well-formed `START` names a state. -/
theorem launchKeepsThePremises : Obligations.LaunchKeepsThePremises := by
  refine ⟨fun p b n wf start => ?_, fun p b o os wf start edges => ?_⟩
  · have named : n < 11 := Nat.lt_succ_of_le (start_le_of_wellFormed wf start)
    exact ⟨⟨n, named⟩, rfl, launch_of_start b wf start⟩
  · exact (launch_of_no_start b wf start edges).trans (launchAtReset_eq b _ o os)

end Sys2Proof.Machine
end

section
/-! PROOFS. Encoded instructions read back, through the word and its container, and which operation a step runs: that of
the driven word, of a free word when none is driven (log entry 7), or of the instruction placed before the step. -/

namespace Sys2Proof.Machine

/-- Settles O4: the decoder reads back the encoded word, and both containers hold all of its 5 bits. -/
theorem decodeEncodeRoundTrip : Obligations.DecodeEncodeRoundTrip := by
  intro i _
  have container {nbits : Nat} (wide : 5 ≤ nbits) : decodeTableWord nbits (encode i).toNat = some i := by
    rw [decodeTableWord_toNat wide, decode_encode]
  exact ⟨decode_encode i, container (by decide), container (by decide)⟩

/-- Settles O1: the bits r and a of each word choose its row of R68, and an ADVANCE word's operand is its sensor bits. -/
theorem decodeOfSampleWords : Obligations.DecodeOfSampleWords :=
  ⟨decode_of_hold rfl rfl, decode_of_hold rfl rfl, decode_of_adv rfl rfl, decode_of_adv rfl rfl, decode_of_adv rfl rfl,
    decode_of_rst rfl, decode_of_rst rfl, decode_of_rst rfl, decode_of_rst rfl⟩

/-- Settles O7: the edge takes the driven word. -/
theorem stepRunsTheDrivenWord : Obligations.StepRunsTheDrivenWord :=
  fun _ _ _ => step_of_inputs_cons

/-- With nothing driven a step draws the next free word and runs its operation (log entry 7). -/
theorem step_of_inputs_nil {s : State} (h : s.inputs = []) :
    step s = exec (decode (Config.envInput s.drawn)) { s with drawn := s.drawn + 1 } := by
  simp only [step, takeInputs_nil h]

/-- Settles O8: the edge draws a free word. -/
theorem stepRunsAFreeWordWhenNoneIsDriven : Obligations.StepRunsAFreeWordWhenNoneIsDriven :=
  fun _ => step_of_inputs_nil

/-- A word laid out in any number of bits from 5 on is placed whole, before the words already there. -/
theorem State.withFetchWord_toNat {nbits : Nat} (wide : 5 ≤ nbits) (s : State) (o : Opw) :
    s.withFetchWord nbits o.toNat = { s with inputs := o :: s.inputs } := by
  have fits : o.toNat < 2 ^ nbits := o.isLt.trans_le (Nat.pow_le_pow_right Nat.two_pos wide)
  simp [State.withFetchWord, Nat.mod_eq_of_lt fits]

/-- The next step takes exactly the placed word, so its operation runs on the state of before. -/
theorem step_withFetchWord {nbits : Nat} (wide : 5 ≤ nbits) (s : State) (o : Opw) :
    step (s.withFetchWord nbits o.toNat) = exec (decode o) s := by
  rw [State.withFetchWord_toNat wide, step_of_inputs_cons rfl]

/-- Settles O9: the placed word is the instruction's encoding, which decodes back to it. -/
theorem fetchWordRunsAtTheNextStep : Obligations.FetchWordRunsAtTheNextStep := by
  intro s i _
  rw [step_withFetchWord (by decide), decode_encode]

end Sys2Proof.Machine
end
